-- ==== Sys2Proof/Word.lean ====
section
/-! DEFINITION. The word types of the block (00_scope.md R8: `uN` is an unsigned N-bit value, `iN` a two's-complement one).
Only names of types stand here; every operation on words is in Decode.lean or under Machine/. -/

namespace Sys2Proof

/-- One byte of a transport (20_memory.md R66). -/
abbrev Byte := BitVec 8

/-- `u8` (R8). -/
abbrev U8 := BitVec 8

/-- `u16` (R8). -/
abbrev U16 := BitVec 16

/-- `i16` (R8): the same bits as `U16`, read through `BitVec.toInt`. -/
abbrev I16 := BitVec 16

/-- `u32` (R8). -/
abbrev U32 := BitVec 32

/-- A command word `W[47:0]` (30_encoding.md R80). -/
abbrev Word48 := BitVec 48

end Sys2Proof
end

