-- ==== Sys2Proof/Config.lean ====
section
/-! DEFINITION. The configuration: the parameters of 00_scope.md R6 and the ROM tables of 10_state.md R42-R44, as plain data.
Build-time constants: no command writes them (70_reset_and_hazards.md R282). A machine carries its configuration in
`State.config`, so that a statement about every state is a statement about every configuration (log 1).
The constraints of R7 are `Config.wf` in WellFormed.lean; the spec's reference values are `Config.reference` in
Machine/Tables.lean. -/

namespace Sys2Proof

/-- LFSR_FORM (R6, R110): which realisation of the polynomial the noise generator is. -/
inductive LfsrForm where
  | fib
  | gal
deriving DecidableEq, Repr

/-- One step of a pattern (10_state.md R44). -/
structure PatternStep where
  isTone     : Bool
  freqHz     : U16
  durationMs : U16
  level      : U8
deriving DecidableEq, Repr

/-- PATTERN_TABLE (10_state.md R44): the four step lists, in the id order of R35 and R200. -/
structure PatternTable where
  single : List PatternStep
  double : List PatternStep
  error  : List PatternStep
  alert  : List PatternStep
deriving DecidableEq, Repr

/-- The parameters of R6, in the order of its table. -/
structure Config where
  /-- SAMPLE_RATE, Hz. -/
  sampleRate     : Nat
  minFreqHz      : U16
  maxFreqHz      : U16
  burstDelayMin  : U16
  burstDelayMax  : U16
  /-- MAX_VOICES, 1..4. -/
  maxVoices      : Nat
  lfsrForm       : LfsrForm
  lfsrSeed       : U16
  lfsrReseed     : U16
  /-- ATTACK_SAMPLES, 1..65535. -/
  attackSamples  : Nat
  /-- ATTACK_WAVE (R42): ATTACK_SAMPLES entries. -/
  attackWave     : List I16
  attackEnvInit  : U16
  /-- ATTACK_DECAY, a Q0.16 factor. -/
  attackDecay    : U16
  /-- TAIL_MAX_SAMPLES, 1..65535. -/
  tailMaxSamples : Nat
  tailEnvInit    : U16
  /-- TAIL_DECAY, a Q0.16 factor. -/
  tailDecay      : U16
  tailBaseInc    : U16
  jitterMask     : U16
  jitterOffset   : U16
  /-- NOISE_SHIFT, 0..15. -/
  noiseShift     : Nat
  /-- SINE_TABLE (R43): 256 entries. -/
  sineTable      : List I16
  attenEnable    : Bool
  /-- CLICK_ATTEN, a Q0.16 factor. -/
  clickAtten     : U16
  beepPhaseReset : Bool
  patternTable   : PatternTable
  /-- VOLUME_RESET, 0..100. -/
  volumeReset    : Nat
deriving DecidableEq, Repr

end Sys2Proof
end

