-- ==== Sys2Proof/Syntax.lean ====
section
/-! DEFINITION. The command set: one constructor per row of spec/opcode_table.json (30_encoding.md R87), and the assembler's
lines with the pseudo-instructions (R95, R96). -/

namespace Sys2Proof

/-- A decoded command word. Every operand has the width of its field (R93), so it holds every value the encoding admits.
The three reserved opcodes (R89) are rows of the table too; they keep the 44 bits below the opcode, so that no bit of a word is lost. -/
inductive Instr where
  | nop
  | init
  | tick
  | triggerClick
  | triggerBurst (min : U8) (max : U8)
  | beepStart (freq : U16) (dur : U16) (lvl : U8)
  | stopAll
  | patternStart (imm : U8)
  | setVolume (imm : U8)
  | getVolume
  | getStatus
  | lfsrNext
  | lfsrRanged (rmin : U16) (rmax : U16)
  | reservedD (low : BitVec 44)
  | reservedE (low : BitVec 44)
  | reservedF (low : BitVec 44)
deriving DecidableEq, Repr

/-- The pattern names of `PATTERN_START` in assembly (R96). -/
inductive PatternName where
  | single
  | double
  | error
  | alert
deriving DecidableEq, Repr

/-- One line of assembly after its text is read (R95, R96): operands are numbers of any size, which the assembler refuses
when they do not fit their field. -/
inductive AsmLine where
  | nop
  | init
  | tick
  | triggerClick
  | triggerBurst (min : Nat) (max : Nat)
  | beepStart (freq : Nat) (dur : Nat) (lvl : Nat)
  | stopAll
  | patternStart (id : Nat)
  | setVolume (pct : Nat)
  | getVolume
  | getStatus
  | lfsrNext
  | lfsrRanged (rmin : Nat) (rmax : Nat)
  /-- `TICKS n`, n >= 1. -/
  | ticks (n : Nat)
  /-- `PATTERN_START SINGLE` and the like. -/
  | patternNamed (name : PatternName)
  /-- `BEEP_OFF`. -/
  | beepOff
  /-- `BURST n`. -/
  | burst (n : Nat)
deriving DecidableEq, Repr

end Sys2Proof
end

