-- ==== Sys2Proof/WellFormed.lean ====
section
/-! DEFINITION. What is well formed: a configuration (00_scope.md R7 and the types of R6; 44_pattern_sequencer.md R201 for the fixed
shapes of PATTERN_TABLE), a line of assembly
(30_encoding.md R95, R96), and an instruction that an assembler may emit (a command, not a reserved opcode, R89). -/

namespace Sys2Proof

/-! ### Configurations -/

/-- R7: "LFSR_SEED != 0 and LFSR_RESEED != 0". -/
def Config.seedsNonzero (c : Config) : Bool := c.lfsrSeed != 0 && c.lfsrReseed != 0

/-- R7: "MIN_FREQ_HZ <= MAX_FREQ_HZ < SAMPLE_RATE". -/
def Config.freqRange (c : Config) : Bool :=
  decide (c.minFreqHz.toNat ≤ c.maxFreqHz.toNat) && decide (c.maxFreqHz.toNat < c.sampleRate)

/-- R7: "SAMPLE_RATE >= 1 and SAMPLE_RATE <= 65535". -/
def Config.sampleRateRange (c : Config) : Bool := decide (1 ≤ c.sampleRate) && decide (c.sampleRate ≤ 65535)

/-- R7: "BURST_DELAY_MIN <= BURST_DELAY_MAX". -/
def Config.burstDelayRange (c : Config) : Bool := decide (c.burstDelayMin.toNat ≤ c.burstDelayMax.toNat)

/-- R7: "1 <= ATTACK_SAMPLES <= 65535". -/
def Config.attackSamplesRange (c : Config) : Bool := decide (1 ≤ c.attackSamples) && decide (c.attackSamples ≤ 65535)

/-- R7: "1 <= TAIL_MAX_SAMPLES <= 65535". -/
def Config.tailMaxRange (c : Config) : Bool := decide (1 ≤ c.tailMaxSamples) && decide (c.tailMaxSamples ≤ 65535)

/-- R7: "Every PATTERN_TABLE list has at most 255 steps". -/
def Config.patternLengths (c : Config) : Bool :=
  decide (c.patternTable.single.length ≤ 255) && (decide (c.patternTable.double.length ≤ 255) &&
    (decide (c.patternTable.error.length ≤ 255) && decide (c.patternTable.alert.length ≤ 255)))

/-- R7: "1 <= MAX_VOICES <= 4". -/
def Config.maxVoicesRange (c : Config) : Bool := decide (1 ≤ c.maxVoices) && decide (c.maxVoices ≤ 4)

/-- R6's type of NOISE_SHIFT: "integer 0..15" (log 13). -/
def Config.noiseShiftRange (c : Config) : Bool := decide (c.noiseShift ≤ 15)

/-- R6's type of VOLUME_RESET: "integer 0..100" (log 13). -/
def Config.volumeResetRange (c : Config) : Bool := decide (c.volumeReset ≤ 100)

/-- A list has exactly `n` entries, checked one entry at a time. -/
def hasEntries {α : Type} : Nat → List α → Bool
  | 0, [] => true
  | 0, _ :: _ => false
  | _ + 1, [] => false
  | n + 1, _ :: xs => hasEntries n xs

/-- R6's type of ATTACK_WAVE: "ATTACK_SAMPLES entries of i16" (log 13). -/
def Config.attackWaveLength (c : Config) : Bool := hasEntries c.attackSamples c.attackWave

/-- R6's type of SINE_TABLE: "256 entries of i16" (log 13). -/
def Config.sineTableLength (c : Config) : Bool := hasEntries 256 c.sineTable

/-- R7's constraints and the types of R6. TAIL_DECAY < 65536 is its type's. -/
def Config.wf (c : Config) : Bool :=
  c.seedsNonzero && (c.freqRange && (c.sampleRateRange && (c.burstDelayRange && (c.attackSamplesRange &&
    (c.tailMaxRange && (c.patternLengths && (c.maxVoicesRange && (c.noiseShiftRange && (c.volumeResetRange &&
      (c.attackWaveLength && c.sineTableLength))))))))))

/-- 44_pattern_sequencer.md R201, "one tone": the shape of Single, Error and Alert. An empty list is let through, since R205 says that a
table of length 0 is "allowed by the parameter type" (log 13). -/
def isOneTone : List PatternStep → Bool
  | [] => true
  | [st] => st.isTone
  | _ :: _ :: _ => false

/-- R201, "tone/gap/tone durations of 150 ms each": the shape and the durations of Double; an empty list as for `isOneTone` (log 13). -/
def isToneGapTone : List PatternStep → Bool
  | [] => true
  | [t1, gap, t2] =>
    t1.isTone && (!gap.isTone && (t2.isTone && (t1.durationMs == 150 && (gap.durationMs == 150 && t2.durationMs == 150))))
  | _ => false

/-- R201: "PATTERN_TABLE is therefore a parameter whose shape and Double durations are fixed". -/
def Config.patternShapes (c : Config) : Bool :=
  isOneTone c.patternTable.single && (isToneGapTone c.patternTable.double &&
    (isOneTone c.patternTable.error && isOneTone c.patternTable.alert))

/-- A configuration inside this spec: R7, the types of R6, and what R201 fixes. "A configuration that breaks one is outside this spec,
and a model should refuse it" (R7): `step` does (log 3). -/
def Config.accepted (c : Config) : Bool := c.wf && c.patternShapes

/-! ### Instructions and assembly -/

/-- A legal command (R88): not one of the reserved opcodes, which are illegal whatever their other bits are (R89). Operand
values outside a command's documented range are legal (R91), and every operand fits its field by its type. -/
def Instr.wf : Instr → Bool
  | .nop => true
  | .init => true
  | .tick => true
  | .triggerClick => true
  | .triggerBurst _ _ => true
  | .beepStart _ _ _ => true
  | .stopAll => true
  | .patternStart _ => true
  | .setVolume _ => true
  | .getVolume => true
  | .getStatus => true
  | .lfsrNext => true
  | .lfsrRanged _ _ => true
  | .reservedD _ => false
  | .reservedE _ => false
  | .reservedF _ => false

/-- An operand fits an unsigned field of `bits` bits (R93). -/
def fits (bits n : Nat) : Bool := decide (n < 2 ^ bits)

/-- A line the assembler accepts: every operand fits its field (R95: "An assembler refuses an operand that does not fit
its field. It does not truncate"), and TICKS has n >= 1 (R96). -/
def AsmLine.wf : AsmLine → Bool
  | .nop => true
  | .init => true
  | .tick => true
  | .triggerClick => true
  | .triggerBurst min max => fits 8 min && fits 8 max
  | .beepStart freq dur lvl => fits 16 freq && fits 16 dur && fits 8 lvl
  | .stopAll => true
  | .patternStart id => fits 8 id
  | .setVolume pct => fits 8 pct
  | .getVolume => true
  | .getStatus => true
  | .lfsrNext => true
  | .lfsrRanged rmin rmax => fits 16 rmin && fits 16 rmax
  | .ticks n => decide (1 ≤ n)
  | .patternNamed _ => true
  | .beepOff => true
  | .burst n => fits 8 n

end Sys2Proof
end

