-- ==== Sys2Proof/Decode.lean ====
section
/-! DEFINITION. Decoding and encoding of command words (30_encoding.md), the byte order of a transport (20_memory.md R66), and
the assembler (R95, R96). -/

namespace Sys2Proof

/-- Why the decoder answers no instruction. `reservedBits`: a defined opcode, named by its mnemonic, with a 1 in a bit its
format marks `0` (R90); such a word is illegal and `step` gives it the effect of R245. `shortWord`: fewer than six bytes were
delivered, so there is no command word (70_reset_and_hazards.md R283: the host delivers each word whole). -/
inductive DecodeError where
  | reservedBits (mnemonic : String)
  | shortWord (bytes : Nat)
deriving DecidableEq, Repr

/-- `OP = W[47:44]` (R81). -/
def opField (w : Word48) : BitVec 4 := w.extractLsb' 44 4

/-- The instruction, if the bits its format marks `0` are 0; else rejected by name (R90). -/
def strict {n : Nat} (reserved : BitVec n) (mnemonic : String) (i : Instr) : Except DecodeError Instr :=
  if reserved = 0 then .ok i else .error (.reservedBits mnemonic)

/-- R88, the decoder of a command word: total on all 2^48 words. -/
def decode (w : Word48) : Except DecodeError Instr :=
  match (opField w).toNat with
  | 0x0 => strict (w.extractLsb' 0 44) "NOP" .nop
  | 0x1 => strict (w.extractLsb' 0 44) "INIT" .init
  | 0x2 => strict (w.extractLsb' 0 44) "TICK" .tick
  | 0x3 => strict (w.extractLsb' 0 44) "TRIGGER_CLICK" .triggerClick
  | 0x4 => strict (w.extractLsb' 16 28) "TRIGGER_BURST" (.triggerBurst (w.extractLsb' 8 8) (w.extractLsb' 0 8))
  | 0x5 => strict (w.extractLsb' 40 4) "BEEP_START" (.beepStart (w.extractLsb' 24 16) (w.extractLsb' 8 16) (w.extractLsb' 0 8))
  | 0x6 => strict (w.extractLsb' 0 44) "STOP_ALL" .stopAll
  | 0x7 => strict (w.extractLsb' 8 36) "PATTERN_START" (.patternStart (w.extractLsb' 0 8))
  | 0x8 => strict (w.extractLsb' 8 36) "SET_VOLUME" (.setVolume (w.extractLsb' 0 8))
  | 0x9 => strict (w.extractLsb' 0 44) "GET_VOLUME" .getVolume
  | 0xA => strict (w.extractLsb' 0 44) "GET_STATUS" .getStatus
  | 0xB => strict (w.extractLsb' 0 44) "LFSR_NEXT" .lfsrNext
  | 0xC => strict (w.extractLsb' 32 12) "LFSR_RANGED" (.lfsrRanged (w.extractLsb' 16 16) (w.extractLsb' 0 16))
  | 0xD => .ok (.reservedD (w.extractLsb' 0 44))
  | 0xE => .ok (.reservedE (w.extractLsb' 0 44))
  | _ => .ok (.reservedF (w.extractLsb' 0 44))

/-! ### The encoder -/

/-- The word of an instruction, written from the format tables R82-R86 and the opcode map R87. -/
def encode : Instr → Word48
  | .nop => 0x0#4 ++ 0#44
  | .init => 0x1#4 ++ 0#44
  | .tick => 0x2#4 ++ 0#44
  | .triggerClick => 0x3#4 ++ 0#44
  | .triggerBurst min max => 0x4#4 ++ (0#28 ++ (min ++ max))
  | .beepStart freq dur lvl => 0x5#4 ++ (0#4 ++ (freq ++ (dur ++ lvl)))
  | .stopAll => 0x6#4 ++ 0#44
  | .patternStart imm => 0x7#4 ++ (0#36 ++ imm)
  | .setVolume imm => 0x8#4 ++ (0#36 ++ imm)
  | .getVolume => 0x9#4 ++ 0#44
  | .getStatus => 0xA#4 ++ 0#44
  | .lfsrNext => 0xB#4 ++ 0#44
  | .lfsrRanged rmin rmax => 0xC#4 ++ (0#12 ++ (rmin ++ rmax))
  | .reservedD low => 0xD#4 ++ low
  | .reservedE low => 0xE#4 ++ low
  | .reservedF low => 0xF#4 ++ low

/-! ### Words as bytes of a transport -/

/-- R66: "byte 0 is bits [47:40] and byte 5 is bits [7:0]". -/
def bytesOfWord (w : Word48) : List Byte :=
  [w.extractLsb' 40 8, w.extractLsb' 32 8, w.extractLsb' 24 8, w.extractLsb' 16 8, w.extractLsb' 8 8, w.extractLsb' 0 8]

/-- R66 for a response word: "byte 0 is bits [15:8]". -/
def bytesOfResponse (r : U16) : List Byte := [r.extractLsb' 8 8, r.extractLsb' 0 8]

/-- The first command word of a byte stream and the bytes after it; none when fewer than six bytes are there (R283). -/
def wordOfBytes : List Byte → Option (Word48 × List Byte)
  | b0 :: b1 :: b2 :: b3 :: b4 :: b5 :: rest => some (b0 ++ (b1 ++ (b2 ++ (b3 ++ (b4 ++ b5)))), rest)
  | _ => none

/-- Decoding from bytes: total on any bytes, rejecting by name. -/
def decodeBytes (bytes : List Byte) : Except DecodeError (Instr × List Byte) :=
  match wordOfBytes bytes with
  | none => .error (.shortWord bytes.length)
  | some (w, rest) =>
    match decode w with
    | .ok i => .ok (i, rest)
    | .error e => .error e

/-- The command word of a table row's number `w` of `nbits` bits: the table numbers the one 48-bit word from bit 0 up, and the
bits at and above `nbits` are 0 (log 12). -/
def tableWord (nbits w : Nat) : Word48 := BitVec.ofNat 48 (w % 2 ^ nbits)

/-- The instruction the decoder reads from a table word, laid out in bytes as R66 says. -/
def decodeTableWord (nbits w : Nat) : Option Instr :=
  match decodeBytes (bytesOfWord (tableWord nbits w)) with
  | .ok (i, _) => some i
  | .error _ => none

/-! ### The assembler -/

/-- The id of a pattern name (R96). -/
def patternNumber : PatternName → U8
  | .single => 0
  | .double => 1
  | .error => 2
  | .alert => 3

/-- The instructions a line stands for (R95, R96), each operand already known to fit its field. -/
def expand : AsmLine → List Instr
  | .nop => [.nop]
  | .init => [.init]
  | .tick => [.tick]
  | .triggerClick => [.triggerClick]
  | .triggerBurst min max => [.triggerBurst (BitVec.ofNat 8 min) (BitVec.ofNat 8 max)]
  | .beepStart freq dur lvl => [.beepStart (BitVec.ofNat 16 freq) (BitVec.ofNat 16 dur) (BitVec.ofNat 8 lvl)]
  | .stopAll => [.stopAll]
  | .patternStart id => [.patternStart (BitVec.ofNat 8 id)]
  | .setVolume pct => [.setVolume (BitVec.ofNat 8 pct)]
  | .getVolume => [.getVolume]
  | .getStatus => [.getStatus]
  | .lfsrNext => [.lfsrNext]
  | .lfsrRanged rmin rmax => [.lfsrRanged (BitVec.ofNat 16 rmin) (BitVec.ofNat 16 rmax)]
  | .ticks n => List.replicate n .tick
  | .patternNamed name => [.patternStart (patternNumber name)]
  | .beepOff => [.beepStart 0 0 0]
  | .burst n => [.triggerBurst (BitVec.ofNat 8 n) (BitVec.ofNat 8 n)]

/-- The words of a line, or none where the assembler refuses it (R95). -/
def assemble (l : AsmLine) : Option (List Word48) :=
  if l.wf then some ((expand l).map encode) else none

/-- The words of a program: the lines' words in order; none if a line is refused. -/
def assembleAll : List AsmLine → Option (List Word48)
  | [] => some []
  | l :: ls =>
    match assemble l, assembleAll ls with
    | some ws, some rest => some (ws ++ rest)
    | _, _ => none

/-! ### The assembler's text -/

/-- A blank within a line. -/
def isBlank (c : Char) : Bool := c == ' ' || (c == '\t' || c == '\r')

/-- R95: "`;` starts a comment". -/
def uncomment (line : List Char) : List Char := line.takeWhile (fun c => c != ';')

/-- Without the blanks at both ends. -/
def trimBlanks (cs : List Char) : List Char := ((cs.dropWhile isBlank).reverse.dropWhile isBlank).reverse

/-- The pieces between separators; always at least one. -/
def splitChars (sep : Char) : List Char → List (List Char)
  | [] => [[]]
  | c :: cs =>
    if c = sep then [] :: splitChars sep cs
    else
      match splitChars sep cs with
      | [] => [[c]]
      | w :: ws => (c :: w) :: ws

/-- The value of a decimal or hexadecimal digit (log 20). -/
def digitValue (c : Char) : Option Nat :=
  if 48 ≤ c.toNat ∧ c.toNat ≤ 57 then some (c.toNat - 48)
  else if 65 ≤ c.toNat ∧ c.toNat ≤ 70 then some (c.toNat - 55)
  else if 97 ≤ c.toNat ∧ c.toNat ≤ 102 then some (c.toNat - 87)
  else none

/-- The number that digits in a base go on to, from the value of the digits before them. -/
def digitsValue (base : Nat) : Nat → List Char → Option Nat
  | acc, [] => some acc
  | acc, c :: cs =>
    match digitValue c with
    | some d => if d < base then digitsValue base (acc * base + d) cs else none
    | none => none

/-- R95: "Operands are decimal or `0x` hexadecimal". -/
def parseNumber : List Char → Option Nat
  | [] => none
  | '0' :: 'x' :: c :: cs => digitsValue 16 0 (c :: cs)
  | c :: cs => digitsValue 10 0 (c :: cs)

/-- Every piece as a number. -/
def parseNumbers : List (List Char) → Option (List Nat)
  | [] => some []
  | w :: ws =>
    match parseNumber (trimBlanks w), parseNumbers ws with
    | some n, some ns => some (n :: ns)
    | _, _ => none

/-- The operands `op1, op2, ...` of a line. -/
def parseOperands (rest : List Char) : Option (List Nat) := parseNumbers (splitChars ',' rest)

def noOperand (rest : List Char) (l : AsmLine) : Option AsmLine := if rest = [] then some l else none

def oneOperand (rest : List Char) (l : Nat → AsmLine) : Option AsmLine :=
  match parseOperands rest with
  | some [a] => some (l a)
  | _ => none

def twoOperands (rest : List Char) (l : Nat → Nat → AsmLine) : Option AsmLine :=
  match parseOperands rest with
  | some [a, b] => some (l a b)
  | _ => none

def threeOperands (rest : List Char) (l : Nat → Nat → Nat → AsmLine) : Option AsmLine :=
  match parseOperands rest with
  | some [a, b, c] => some (l a b c)
  | _ => none

/-- R96: PATTERN_START with a name; else with an id. -/
def patternOperand (rest : List Char) : Option AsmLine :=
  if rest = ['S', 'I', 'N', 'G', 'L', 'E'] then some (.patternNamed .single)
  else if rest = ['D', 'O', 'U', 'B', 'L', 'E'] then some (.patternNamed .double)
  else if rest = ['E', 'R', 'R', 'O', 'R'] then some (.patternNamed .error)
  else if rest = ['A', 'L', 'E', 'R', 'T'] then some (.patternNamed .alert)
  else oneOperand rest .patternStart

/-- R95, R96: the command of a mnemonic with the text after it. -/
def parseCommand (mnemonic rest : List Char) : Option AsmLine :=
  if mnemonic = ['N', 'O', 'P'] then noOperand rest .nop
  else if mnemonic = ['I', 'N', 'I', 'T'] then noOperand rest .init
  else if mnemonic = ['T', 'I', 'C', 'K'] then noOperand rest .tick
  else if mnemonic = ['T', 'R', 'I', 'G', 'G', 'E', 'R', '_', 'C', 'L', 'I', 'C', 'K'] then noOperand rest .triggerClick
  else if mnemonic = ['T', 'R', 'I', 'G', 'G', 'E', 'R', '_', 'B', 'U', 'R', 'S', 'T'] then twoOperands rest .triggerBurst
  else if mnemonic = ['B', 'E', 'E', 'P', '_', 'S', 'T', 'A', 'R', 'T'] then threeOperands rest .beepStart
  else if mnemonic = ['S', 'T', 'O', 'P', '_', 'A', 'L', 'L'] then noOperand rest .stopAll
  else if mnemonic = ['P', 'A', 'T', 'T', 'E', 'R', 'N', '_', 'S', 'T', 'A', 'R', 'T'] then patternOperand rest
  else if mnemonic = ['S', 'E', 'T', '_', 'V', 'O', 'L', 'U', 'M', 'E'] then oneOperand rest .setVolume
  else if mnemonic = ['G', 'E', 'T', '_', 'V', 'O', 'L', 'U', 'M', 'E'] then noOperand rest .getVolume
  else if mnemonic = ['G', 'E', 'T', '_', 'S', 'T', 'A', 'T', 'U', 'S'] then noOperand rest .getStatus
  else if mnemonic = ['L', 'F', 'S', 'R', '_', 'N', 'E', 'X', 'T'] then noOperand rest .lfsrNext
  else if mnemonic = ['L', 'F', 'S', 'R', '_', 'R', 'A', 'N', 'G', 'E', 'D'] then twoOperands rest .lfsrRanged
  else if mnemonic = ['T', 'I', 'C', 'K', 'S'] then oneOperand rest .ticks
  else if mnemonic = ['B', 'E', 'E', 'P', '_', 'O', 'F', 'F'] then noOperand rest .beepOff
  else if mnemonic = ['B', 'U', 'R', 'S', 'T'] then oneOperand rest .burst
  else none
/-- R95: one line of text; `some none` for a line with no command. -/
def parseLine (line : List Char) : Option (Option AsmLine) :=
  match trimBlanks (uncomment line) with
  | [] => some none
  | c :: cs =>
    match parseCommand ((c :: cs).takeWhile (fun d => !isBlank d)) (trimBlanks ((c :: cs).dropWhile (fun d => !isBlank d))) with
    | some l => some (some l)
    | none => none

/-- R95: "one command per line"; none if a line is not in the syntax. -/
def parseLines : List (List Char) → Option (List AsmLine)
  | [] => some []
  | t :: ts =>
    match parseLine t, parseLines ts with
    | some (some l), some ls => some (l :: ls)
    | some none, some ls => some ls
    | _, _ => none

/-- The words of a program's text; none if a line is not in the syntax, or refused (R95). -/
def assembleText (text : List Char) : Option (List Word48) :=
  match parseLines (splitChars '\n' text) with
  | some ls => assembleAll ls
  | none => none

end Sys2Proof
end

