-- ==== Sys2Proof/Machine/Arith.lean ====
section
/-! DEFINITION. The arithmetic primitives of 00_scope.md R8-R10: exact integers, narrowed where a field is written. -/

namespace Sys2Proof.Machine

/-- R10: `sat16(v) = max(-32768, min(32767, v))`. -/
def sat16 (v : Int) : Int := max (-32768) (min 32767 v)

/-- R9: `a >>a n` is `floor(a / 2^n)`, rounding toward minus infinity. -/
def asr (v : Int) (n : Nat) : Int := v / (2 : Int) ^ n

/-- R9: `sext_16(v)` is `v - 65536` if `v[15] = 1`, else `v`. -/
def sext16 (v : U16) : Int := if v.getLsbD 15 then (v.toNat : Int) - 65536 else v.toNat

/-- A signed value as the 16 bits of its two's complement (30_encoding.md R94). -/
def toI16 (v : Int) : U16 := BitVec.ofInt 16 v

/-- 00_scope.md section 5, Q0.16 factor: "Scaling v by f is (v * f) >>a 16". -/
def scaleQ16 (v : Int) (f : U16) : Int := asr (v * (f.toNat : Int)) 16

/-- One Q0.16 multiply of an envelope, stored in 16 bits: `(e * d) >> 16` (41_click_voice.md R130, R140). -/
def decayQ16 (e d : U16) : U16 := BitVec.ofNat 16 (e.toNat * d.toNat / 2 ^ 16)

/-- R9: `ceil(a / b)` on naturals, for `b > 0`. -/
def ceilDiv (a b : Nat) : Nat := (a + (b - 1)) / b

end Sys2Proof.Machine
end

