-- ==== Sys2Proof/Machine/Tables.lean ====
section
/-! DEFINITION. The attack-envelope table's formula (41_click_voice.md R130) and the reference configuration of 00_scope.md R6
with its tables (95_test_vectors.md section 1, 44_pattern_sequencer.md R201). The reference values of OPEN parameters are the
spec's own choice (92_eei_decisions.md D38), not the firmware's (log 2). -/

namespace Sys2Proof.Machine

/-! ### The attack envelope -/

/-- `n` entries from `e` on, each the Q0.16 product of the one before with the factor `d`. -/
def attackEnvFrom (d : U16) : Nat → U16 → List U16
  | 0, _ => []
  | n + 1, e => e :: attackEnvFrom d n (decayQ16 e d)

/-- R130, `BuildAttackEnv()`: the contents of ATTACK_ENV. -/
def attackEnvTable (c : Config) : List U16 := attackEnvFrom c.attackDecay c.attackSamples c.attackEnvInit

/-! ### The reference tables -/

/-- Signed entries of a ROM as their 16 bits. -/
def i16s (vs : List Int) : List I16 := vs.map (BitVec.ofInt 16)

/-- ATTACK_WAVE (95_test_vectors.md section 1.1; synthetic, 92_eei_decisions.md D40). -/
def referenceAttackWave : List I16 :=
  i16s [0, 12000, 24000, 32767, 20000, 0, -20000, -32768, -24000, -12000, 0, 8000, 4000, 0, -4000, 0]

/-- SINE_TABLE entries 0..15 (95_test_vectors.md section 1.2). -/
def sineRow0 : List I16 :=
  i16s [0, 804, 1608, 2410, 3212, 4011, 4808, 5602, 6393, 7179, 7962, 8739, 9512, 10278, 11039, 11793]

/-- SINE_TABLE entries 16..31 (95_test_vectors.md section 1.2). -/
def sineRow1 : List I16 :=
  i16s [12539, 13279, 14010, 14732, 15446, 16151, 16846, 17530, 18204, 18868, 19519, 20159, 20787, 21403, 22005, 22594]

/-- SINE_TABLE entries 32..47 (95_test_vectors.md section 1.2). -/
def sineRow2 : List I16 :=
  i16s [23170, 23731, 24279, 24811, 25329, 25832, 26319, 26790, 27245, 27683, 28105, 28510, 28898, 29268, 29621, 29956]

/-- SINE_TABLE entries 48..63 (95_test_vectors.md section 1.2). -/
def sineRow3 : List I16 :=
  i16s [30273, 30571, 30852, 31113, 31356, 31580, 31785, 31971, 32137, 32285, 32412, 32521, 32609, 32678, 32728, 32757]

/-- SINE_TABLE entries 64..79 (95_test_vectors.md section 1.2). -/
def sineRow4 : List I16 :=
  i16s [32767, 32757, 32728, 32678, 32609, 32521, 32412, 32285, 32137, 31971, 31785, 31580, 31356, 31113, 30852, 30571]

/-- SINE_TABLE entries 80..95 (95_test_vectors.md section 1.2). -/
def sineRow5 : List I16 :=
  i16s [30273, 29956, 29621, 29268, 28898, 28510, 28105, 27683, 27245, 26790, 26319, 25832, 25329, 24811, 24279, 23731]

/-- SINE_TABLE entries 96..111 (95_test_vectors.md section 1.2). -/
def sineRow6 : List I16 :=
  i16s [23170, 22594, 22005, 21403, 20787, 20159, 19519, 18868, 18204, 17530, 16846, 16151, 15446, 14732, 14010, 13279]

/-- SINE_TABLE entries 112..127 (95_test_vectors.md section 1.2). -/
def sineRow7 : List I16 :=
  i16s [12539, 11793, 11039, 10278, 9512, 8739, 7962, 7179, 6393, 5602, 4808, 4011, 3212, 2410, 1608, 804]

/-- SINE_TABLE entries 128..143 (95_test_vectors.md section 1.2). -/
def sineRow8 : List I16 :=
  i16s [0, -804, -1608, -2410, -3212, -4011, -4808, -5602, -6393, -7179, -7962, -8739, -9512, -10278, -11039, -11793]

/-- SINE_TABLE entries 144..159 (95_test_vectors.md section 1.2). -/
def sineRow9 : List I16 :=
  i16s [-12539, -13279, -14010, -14732, -15446, -16151, -16846, -17530, -18204, -18868, -19519, -20159, -20787, -21403, -22005, -22594]

/-- SINE_TABLE entries 160..175 (95_test_vectors.md section 1.2). -/
def sineRow10 : List I16 :=
  i16s [-23170, -23731, -24279, -24811, -25329, -25832, -26319, -26790, -27245, -27683, -28105, -28510, -28898, -29268, -29621, -29956]

/-- SINE_TABLE entries 176..191 (95_test_vectors.md section 1.2). -/
def sineRow11 : List I16 :=
  i16s [-30273, -30571, -30852, -31113, -31356, -31580, -31785, -31971, -32137, -32285, -32412, -32521, -32609, -32678, -32728, -32757]

/-- SINE_TABLE entries 192..207 (95_test_vectors.md section 1.2). -/
def sineRow12 : List I16 :=
  i16s [-32767, -32757, -32728, -32678, -32609, -32521, -32412, -32285, -32137, -31971, -31785, -31580, -31356, -31113, -30852, -30571]

/-- SINE_TABLE entries 208..223 (95_test_vectors.md section 1.2). -/
def sineRow13 : List I16 :=
  i16s [-30273, -29956, -29621, -29268, -28898, -28510, -28105, -27683, -27245, -26790, -26319, -25832, -25329, -24811, -24279, -23731]

/-- SINE_TABLE entries 224..239 (95_test_vectors.md section 1.2). -/
def sineRow14 : List I16 :=
  i16s [-23170, -22594, -22005, -21403, -20787, -20159, -19519, -18868, -18204, -17530, -16846, -16151, -15446, -14732, -14010, -13279]

/-- SINE_TABLE entries 240..255 (95_test_vectors.md section 1.2). -/
def sineRow15 : List I16 :=
  i16s [-12539, -11793, -11039, -10278, -9512, -8739, -7962, -7179, -6393, -5602, -4808, -4011, -3212, -2410, -1608, -804]

/-- SINE_TABLE (95_test_vectors.md section 1.2; 92_eei_decisions.md D39). -/
def referenceSineTable : List I16 :=
  sineRow0 ++ sineRow1 ++ sineRow2 ++ sineRow3 ++
    sineRow4 ++ sineRow5 ++ sineRow6 ++ sineRow7 ++
    sineRow8 ++ sineRow9 ++ sineRow10 ++ sineRow11 ++
    sineRow12 ++ sineRow13 ++ sineRow14 ++ sineRow15

/-- A tone step. -/
def toneStep (freq dur : U16) (lvl : U8) : PatternStep := { isTone := true, freqHz := freq, durationMs := dur, level := lvl }

/-- A gap step. -/
def gapStep (dur : U16) : PatternStep := { isTone := false, freqHz := 0, durationMs := dur, level := 0 }

/-- PATTERN_TABLE (44_pattern_sequencer.md R201). -/
def referencePatternTable : PatternTable :=
  { single := [toneStep 2000 50 255]
    double := [toneStep 2000 150 255, gapStep 150, toneStep 2000 150 255]
    error := [toneStep 400 500 255]
    alert := [toneStep 3000 30 255] }

end Sys2Proof.Machine

namespace Sys2Proof

/-- The reference configuration: the "value" column of R6 (92_eei_decisions.md D38; log 2). -/
def Config.reference : Config :=
  { sampleRate := 16000
    minFreqHz := 200
    maxFreqHz := 3000
    burstDelayMin := 32
    burstDelayMax := 512
    maxVoices := 4
    lfsrForm := .fib
    lfsrSeed := 0xACE1
    lfsrReseed := 0xACE1
    attackSamples := 16
    attackWave := Machine.referenceAttackWave
    attackEnvInit := 0xFFFF
    attackDecay := 0xE000
    tailMaxSamples := 800
    tailEnvInit := 0xFFFF
    tailDecay := 0xF800
    tailBaseInc := 1802
    jitterMask := 0x001F
    jitterOffset := 16
    noiseShift := 4
    sineTable := Machine.referenceSineTable
    attenEnable := true
    clickAtten := 0x8000
    beepPhaseReset := false
    patternTable := Machine.referencePatternTable
    volumeReset := 100 }

end Sys2Proof
end

