-- ==== Sys2Proof/Machine/State.lean ====
section
/-! DEFINITION. The state of the machine (10_state.md R20: "one record with these parts"), its reset values (R48), and the
reasons a step can stop. Plain data: no field holds a function. -/

namespace Sys2Proof.Machine

/-- One slot of the voice pool (R22-R26). -/
structure Voice where
  /-- V[i].ACTIVE (R23). -/
  active : Bool
  /-- V[i].POS (R24). -/
  pos    : U16
  /-- V[i].ENV (R25). -/
  env    : U16
  /-- V[i].PH (R26). -/
  ph     : U16
deriving DecidableEq, Repr

/-- The burst scheduler (R27-R29). -/
structure Burst where
  /-- B.ACTIVE (R27). -/
  active : Bool
  /-- B.REM (R28). -/
  rem    : U8
  /-- B.DELAY (R29). -/
  delay  : U16
deriving DecidableEq, Repr

/-- The beep oscillator (R30-R33). It is active exactly when `srem > 0` (R34). -/
structure Osc where
  /-- O.PHASE (R30). -/
  phase : U32
  /-- O.STEP (R31). -/
  step  : U32
  /-- O.SREM (R32). -/
  srem  : U32
  /-- O.LEVEL (R33). -/
  level : U8
deriving DecidableEq, Repr

/-- The pattern sequencer (R35-R38). -/
structure Pattern where
  /-- P.TVALID (R35). -/
  tvalid : Bool
  /-- P.TID (R35): 0 Single, 1 Double, 2 Error, 3 Alert. -/
  tid    : BitVec 2
  /-- P.IDX (R36). -/
  idx    : U8
  /-- P.SREM (R37). -/
  srem   : U32
  /-- P.ACTIVE (R38). -/
  active : Bool
deriving DecidableEq, Repr

/-- The indexed tables of 20_memory.md R61-R63. -/
inductive TableName where
  | attackWave
  | attackEnv
  | sineTable
deriving DecidableEq, Repr

/-- Why the machine stops. The block itself never faults (60_exceptions.md R260, R264); an illegal word is a next state (R245). -/
inductive Fault where
  /-- Raised by TICK's voice advance when it would read a table at an index outside its index space. The spec says that this never
  happens: "Every table read is in range" (20_memory.md R65). It is reached only from states outside `State.Inv` (a table
  of the wrong length). Safe: the model stops where it would have to invent an entry (log 10). -/
  | tableIndex (table : TableName) (index : Nat)
deriving DecidableEq, Repr

/-- Why the model refuses. -/
inductive Refusal where
  /-- Raised by an arm of `exec` whose instruction has no meaning yet. No arm does. Safe. -/
  | notModelled (mnemonic : String)
  /-- Raised by `step` when the configuration breaks R7, a type of R6 or what R201 fixes of PATTERN_TABLE: "A configuration that breaks one is outside this spec, and a model
  should refuse it" (00_scope.md R7, 92_eei_decisions.md D37). Safe (log 3). -/
  | configOutsideSpec
deriving DecidableEq, Repr

/-- The whole state. `config`, `pending` and `resp` are the model's own fields (INVENTORY.md); the others are R20's. -/
structure State where
  /-- The parameters and ROMs, fixed for the machine (log 1). -/
  config    : Config
  /-- LFSR (R21). -/
  lfsr      : U16
  /-- V[0..MAX_VOICES-1] (R22). -/
  voices    : List Voice
  burst     : Burst
  osc       : Osc
  pattern   : Pattern
  /-- VOLUME (R39). -/
  volume    : BitVec 7
  /-- STATUS.ILL (R40). -/
  ill       : Bool
  /-- ATTACK_ENV[0..ATTACK_SAMPLES-1] (R41). -/
  attackEnv : List U16
  /-- Accepted command words not yet executed, oldest first (20_memory.md R70; log 4). -/
  pending   : List Word48
  /-- RESP[15:0] of the last executed command (30_encoding.md R94; log 7). -/
  resp      : U16
deriving DecidableEq, Repr

/-- A slot at its reset values (R48); also what `VoiceClear` leaves (41_click_voice.md R131). -/
def Voice.zero : Voice := { active := false, pos := 0, env := 0, ph := 0 }

/-- The burst scheduler at its reset values (R48). -/
def Burst.zero : Burst := { active := false, rem := 0, delay := 0 }

/-- The oscillator at its reset values (R48); also what `BeepClear` leaves (43_beep_oscillator.md R181). -/
def Osc.zero : Osc := { phase := 0, step := 0, srem := 0, level := 0 }

/-- The sequencer at its reset values (R48); also what `PatternClear` leaves (44_pattern_sequencer.md R206). -/
def Pattern.zero : Pattern := { tvalid := false, tid := 0, idx := 0, srem := 0, active := false }

/-- The machine of configuration `c` right after power-on reset (R48, 70_reset_and_hazards.md R280): no word accepted yet. -/
def State.resetWith (c : Config) : State :=
  { config := c
    lfsr := c.lfsrSeed
    voices := List.replicate c.maxVoices Voice.zero
    burst := Burst.zero
    osc := Osc.zero
    pattern := Pattern.zero
    volume := BitVec.ofNat 7 c.volumeReset
    ill := false
    attackEnv := attackEnvTable c
    pending := []
    resp := 0 }

/-- The machine right after reset, in the reference configuration (log 2). -/
def State.reset : State := State.resetWith Config.reference

end Sys2Proof.Machine
end

