-- ==== Sys2Proof/Machine/Flags.lean ====
section
/-! DEFINITION. The status word (10_state.md R40, 46_control.md R244). The block has no arithmetic flags (R46). -/

namespace Sys2Proof.Machine

/-- R34: the oscillator is active exactly when `O.SREM > 0`. -/
def Osc.sounding (o : Osc) : Bool := decide (0 < o.srem.toNat)

/-- R40 bit 4: OR over i of V[i].ACTIVE. -/
def State.voiceActive (s : State) : Bool := s.voices.any Voice.active

/-- R244: `{11'b0, VOICE_ACTIVE, BEEP_ACTIVE, PATTERN_ACTIVE, B.ACTIVE, STATUS.ILL}`. -/
def State.status (s : State) : U16 :=
  0#11 ++ (BitVec.ofBool s.voiceActive ++ (BitVec.ofBool s.osc.sounding ++
    (BitVec.ofBool s.pattern.active ++ (BitVec.ofBool s.burst.active ++ BitVec.ofBool s.ill))))

end Sys2Proof.Machine
end

