-- ==== Sys2Proof/Machine/Operands.lean ====
section
/-! DEFINITION. The normalisations of operands (60_exceptions.md R260: "All 'errors' are input normalization") and the exact
formulas computed from them. -/

namespace Sys2Proof.Machine

/-- 43_beep_oscillator.md R180: `f = min(max(freq, MIN_FREQ_HZ), MAX_FREQ_HZ)`. -/
def clampFreq (c : Config) (freq : U16) : Nat := min (max freq.toNat c.minFreqHz.toNat) c.maxFreqHz.toNat

/-- R180 and 44_pattern_sequencer.md R203: `ceil(durationMs * SAMPLE_RATE / 1000)`, exact. -/
def sampleCount (c : Config) (dur : U16) : Nat := ceilDiv (dur.toNat * c.sampleRate) 1000

/-- R180: `floor((f * 2^33 + SAMPLE_RATE) / (2 * SAMPLE_RATE))`, which is `f * 2^32 / SAMPLE_RATE` rounded half up (log 14). -/
def phaseStep (c : Config) (f : Nat) : Nat := (f * 2 ^ 33 + c.sampleRate) / (2 * c.sampleRate)

/-- 42_burst_scheduler.md R160: `mn = max(MIN, 1)`. -/
def burstMin (min : U8) : Nat := Nat.max min.toNat 1

/-- R160: `mx = max(MAX, mn)`. -/
def burstMax (min max : U8) : Nat := Nat.max max.toNat (burstMin min)

/-- 44_pattern_sequencer.md R200: `TableOf(id) = (id <= 3) ? id : 0`. -/
def tableOf (id : U8) : BitVec 2 := if id.toNat ≤ 3 then BitVec.ofNat 2 id.toNat else 0

/-- The step list PATTERN_TABLE[t] (10_state.md R35, R44). -/
def patternSteps (c : Config) (tid : BitVec 2) : List PatternStep :=
  match tid.toNat with
  | 0 => c.patternTable.single
  | 1 => c.patternTable.double
  | 2 => c.patternTable.error
  | _ => c.patternTable.alert

/-- 46_control.md R242: `min(IMM8, 100)`, in VOLUME's 7 bits. -/
def clampVolume (imm : U8) : BitVec 7 := BitVec.ofNat 7 (min imm.toNat 100)

end Sys2Proof.Machine
end

