-- ==== Sys2Proof/Machine/Ops.lean ====
section
/-! DEFINITION. The named operations over the state that the commands share: writing a part of the state, responding, raising
Illegal, resetting, reading a table, drawing from the noise generator, and the internal operations of the sub-units that more
than one command uses (the click trigger, starting and clearing the oscillator, clearing the sequencer). -/

namespace Sys2Proof.Machine

/-- What one command answers. -/
abbrev Result := Host.Outcome State Fault Refusal

/-! ### Writing one part of the state -/

def State.withLfsr (s : State) (v : U16) : State := { s with lfsr := v }

def State.withVoices (s : State) (v : List Voice) : State := { s with voices := v }

def State.withBurst (s : State) (v : Burst) : State := { s with burst := v }

def State.withOsc (s : State) (v : Osc) : State := { s with osc := v }

def State.withPattern (s : State) (v : Pattern) : State := { s with pattern := v }

def State.withVolume (s : State) (v : BitVec 7) : State := { s with volume := v }

def State.withPending (s : State) (v : List Word48) : State := { s with pending := v }

/-- The response word of a command (30_encoding.md R94). -/
def State.respond (s : State) (v : U16) : State := { s with resp := v }

/-! ### The one error condition, and reset -/

/-- `raise Illegal(word)` (00_scope.md R12, 46_control.md R245): "STATUS.ILL <- 1; RESP <- 0 -- no other state changes". It is
the block's whole exception mechanism: nothing is saved, no mode changes, there is no handler and so no return from it
(60_exceptions.md R264). -/
def State.raiseIllegal (s : State) : State := { s with ill := true, resp := 0 }

/-- `ResetState()` (46_control.md R241, 70_reset_and_hazards.md R280): every field of R48 at its reset value and ATTACK_ENV rebuilt.
The words already accepted stay in their order, and the configuration is no state (log 11). -/
def State.resetEngine (s : State) : State := { State.resetWith s.config with pending := s.pending, resp := s.resp }

/-! ### Tables (20_memory.md R61-R63) -/

/-- One whole entry of a table (R67); stops on an index outside its index space, which R65 says never happens. -/
def readTable (t : TableName) (entries : List U16) (i : Nat) : Except Fault U16 :=
  match entries[i]? with
  | some v => .ok v
  | none => .error (.tableIndex t i)

/-! ### The noise generator (40_noise_generator.md) -/

/-- R110, FIB form: `b = s[0] XOR s[2] XOR s[3] XOR s[5]`, result `{b, s[15:1]}`. -/
def lfsrStepFib (s : U16) : U16 :=
  BitVec.ofBool (s.getLsbD 0 ^^ s.getLsbD 2 ^^ s.getLsbD 3 ^^ s.getLsbD 5) ++ s.extractLsb' 1 15

/-- R110, GAL form: `t = s >> 1`, result `(s[0] == 1) ? (t XOR 0xB400) : t`. -/
def lfsrStepGal (s : U16) : U16 := if s.getLsbD 0 then (s >>> 1) ^^^ 0xB400#16 else s >>> 1

/-- R110, `LfsrStep(s)`. -/
def lfsrStep : LfsrForm → U16 → U16
  | .fib, s => lfsrStepFib s
  | .gal, s => lfsrStepGal s

/-- R111, `Next()`: the new value of LFSR, which is also the draw. A stepped value of 0 is replaced by LFSR_RESEED. -/
def nextDraw (c : Config) (lfsr : U16) : U16 :=
  if lfsrStep c.lfsrForm lfsr = 0 then c.lfsrReseed else lfsrStep c.lfsrForm lfsr

/-- R113: where a draw `r` falls in the inclusive range of `lo` and `hi`, swapped if `lo > hi`. The span is exact, so it does
not wrap for (0, 65535). -/
def rangeMap (lo hi r : U16) : U16 :=
  if lo.toNat > hi.toNat then BitVec.ofNat 16 (hi.toNat + r.toNat % (lo.toNat - hi.toNat + 1))
  else BitVec.ofNat 16 (lo.toNat + r.toNat % (hi.toNat - lo.toNat + 1))

/-- R113, `RangedNext(lo, hi)`: the value of the ranged draw from the register `lfsr`. LFSR becomes `nextDraw c lfsr`. -/
def rangedNext (c : Config) (lo hi lfsr : U16) : U16 := rangeMap lo hi (nextDraw c lfsr)

/-! ### The click trigger (41_click_voice.md) -/

/-- R131, `VoiceClear(i)`. -/
def voiceClear (_ : Voice) : Voice := Voice.zero

/-- R132: slot 0 as the click trigger arms it. -/
def armedVoice (c : Config) : Voice := { active := true, pos := 0, env := c.tailEnvInit, ph := 0 }

/-- R132: the pool after `ClickTrigger()`: every slot cleared, then slot 0 armed. -/
def triggeredPool (c : Config) : List Voice → List Voice
  | [] => []
  | _ :: rest => armedVoice c :: rest.map voiceClear

/-- R132, `ClickTrigger()`. -/
def State.clickTrigger (s : State) : State := s.withVoices (triggeredPool s.config s.voices)

/-! ### The oscillator (43_beep_oscillator.md) and the sequencer (44_pattern_sequencer.md) -/

/-- R181, `BeepClear()`: the four oscillator fields are zeroed. -/
def beepClear (_ : Osc) : Osc := Osc.zero

/-- R180, `BeepStart(freq, dur, lvl)`. -/
def beepStart (c : Config) (freq dur : U16) (lvl : U8) (o : Osc) : Osc :=
  if sampleCount c dur = 0 ∨ lvl = 0 then beepClear o
  else
    { phase := if c.beepPhaseReset then 0 else o.phase
      step := BitVec.ofNat 32 (phaseStep c (clampFreq c freq))
      srem := BitVec.ofNat 32 (sampleCount c dur)
      level := lvl }

/-- 44_pattern_sequencer.md R206, `PatternClear()`. -/
def patternClear (_ : Pattern) : Pattern := Pattern.zero

end Sys2Proof.Machine
end

