-- ==== Sys2Proof/Machine/Channel.lean ====
section
/-! DEFINITION. The command channel: the words accepted and not yet executed, in the one total order of 20_memory.md R70; how the words of
the two producers merge into it (R71); taking the next word. -/

namespace Sys2Proof.Machine

/-- The TICK word (45_mixer_tick.md R220). -/
def tickWord : Word48 := 0x200000000000#48

/-- The next word to execute, and the state once it is taken from the channel; none when no word is pending. -/
def State.fetch (s : State) : Option (Word48 × State) :=
  match s.pending with
  | [] => none
  | w :: rest => some (w, s.withPending rest)

/-- A word placed first in the channel: the very next step executes it (log 4). -/
def State.placeNext (s : State) (w : Word48) : State := s.withPending (w :: s.pending)

/-- Every word of the list is a TICK. -/
def allTicks (q : List Word48) : Bool := q.all (fun w => w == tickWord)

/-- R71: "Control words accepted while a TICK is pending are placed before that TICK", and "Within one producer, order is kept":
a control word goes after the last pending word that is no TICK and before the TICKs pending behind it.

DESIGN CHOICE (log 6), where one producer delivers both TICKs and other words, as 60_exceptions.md R265 allows: the two sentences of
R71 clash, and here the first wins. A pending TICK is known by its word, whoever delivered it, so every later word that is no
TICK goes before it: a control word overtakes a TICK word of the control producer, and a word other than TICK of the audio producer
overtakes that producer's own waiting TICKs. -/
def insertControl (w : Word48) : List Word48 → List Word48
  | [] => [w]
  | x :: xs => if allTicks (x :: xs) then w :: x :: xs else x :: insertControl w xs

/-- A word of the control producer is accepted (60_exceptions.md R267). -/
def State.acceptControl (s : State) (w : Word48) : State := s.withPending (insertControl w s.pending)

/-- A TICK of the audio producer is accepted: it goes last (R70, R71). -/
def State.acceptTick (s : State) : State := s.withPending (s.pending ++ [tickWord])

/-- Power-on reset (70_reset_and_hazards.md R280, R281): the reset state of the machine's own configuration, no word pending (log 11). -/
def State.powerOn (s : State) : State := State.resetWith s.config

end Sys2Proof.Machine
end

