-- ==== Sys2Proof/Machine/Control.lean ====
section
/-! DEFINITION. The control commands (46_control.md) and the reserved opcodes (30_encoding.md R89). -/

namespace Sys2Proof.Machine

/-- R240, NOP: `RESP <- 0`. -/
def execNop (s : State) : Result := .next (s.respond 0)

/-- R241, INIT: `ResetState(); RESP <- 0`. -/
def execInit (s : State) : Result := .next (s.resetEngine.respond 0)

/-- R242, SET_VOLUME: `VOLUME <- min(IMM8, 100); RESP <- 0`. -/
def execSetVolume (imm : U8) (s : State) : Result := .next ((s.withVolume (clampVolume imm)).respond 0)

/-- R243, GET_VOLUME: `RESP <- zext_16(VOLUME)`. -/
def execGetVolume (s : State) : Result := .next (s.respond (s.volume.setWidth 16))

/-- R244, GET_STATUS: the status word; reading does not clear ILL. -/
def execGetStatus (s : State) : Result := .next (s.respond s.status)

/-- R89, RESERVED_D: `raise Illegal(W)` (R245). -/
def execReservedD (_low : BitVec 44) (s : State) : Result := .next s.raiseIllegal

/-- R89, RESERVED_E: `raise Illegal(W)` (R245). -/
def execReservedE (_low : BitVec 44) (s : State) : Result := .next s.raiseIllegal

/-- R89, RESERVED_F: `raise Illegal(W)` (R245). -/
def execReservedF (_low : BitVec 44) (s : State) : Result := .next s.raiseIllegal

end Sys2Proof.Machine
end

