-- ==== Sys2Proof/Machine/BurstScheduler.lean ====
section
/-! DEFINITION. The burst scheduler (42_burst_scheduler.md): TRIGGER_BURST and the per-sample advance. -/

namespace Sys2Proof.Machine

/-- R160, R161: a draw from `[BURST_DELAY_MIN, BURST_DELAY_MAX]`. -/
def delayDraw (c : Config) (lfsr : U16) : U16 := rangedNext c c.burstDelayMin c.burstDelayMax lfsr

/-- R160: the count drawn from `[mn, mx]`, in B.REM's 8 bits. -/
def countDraw (c : Config) (min max : U8) (lfsr : U16) : U8 :=
  BitVec.ofNat 8 (rangedNext c (BitVec.ofNat 16 (burstMin min)) (BitVec.ofNat 16 (burstMax min max)) lfsr).toNat

/-- R160: the state after a burst is armed: draw 1 is the count, draw 2 the initial delay. -/
def State.armBurst (s : State) (min max : U8) : State :=
  (s.withBurst { active := true
                 rem := countDraw s.config min max s.lfsr
                 delay := delayDraw s.config (nextDraw s.config s.lfsr) }).withLfsr
    (nextDraw s.config (nextDraw s.config s.lfsr))

/-- R160, TRIGGER_BURST: (0, 0) is a no-op (90_conflicts.md C2). -/
def execTriggerBurst (min max : U8) (s : State) : Result :=
  if min = 0 ∧ max = 0 then .next (s.respond 0) else .next ((s.armBurst min max).respond 0)

/-- R161: B.DELAY after the decrement, "never below 0". -/
def countedDelay (d : U16) : U16 := BitVec.ofNat 16 (d.toNat - 1)

/-- R161: B.REM after a fire. -/
def firedRem (rem : U8) : U8 := BitVec.ofNat 8 (rem.toNat - 1)

/-- R161: the scheduler after the decrement of B.DELAY. -/
def Burst.counted (b : Burst) : Burst := { b with delay := countedDelay b.delay }

/-- R161: the scheduler after its last fire. -/
def Burst.ended (b : Burst) : Burst := { b with rem := firedRem b.rem, active := false }

/-- R161: the scheduler after a fire that leaves clicks, with the redrawn delay. -/
def Burst.redrawn (b : Burst) (delay : U16) : Burst := { b with rem := firedRem b.rem, delay := delay }

/-- R161: one fire: the click trigger, B.REM decremented, and then either the burst ends or a new delay is drawn. -/
def State.burstFire (s : State) : State :=
  if firedRem s.burst.rem = 0 then
    s.clickTrigger.withBurst s.burst.ended
  else
    (s.clickTrigger.withBurst (s.burst.redrawn (delayDraw s.config s.lfsr))).withLfsr (nextDraw s.config s.lfsr)

/-- R161: the state after the decrement of B.DELAY. -/
def State.burstCounted (s : State) : State := s.withBurst s.burst.counted

/-- R161, `BurstAdvance()`. -/
def State.burstAdvance (s : State) : State :=
  if s.burst.active = false then s
  else if countedDelay s.burst.delay = 0 ∧ 0 < s.burst.rem.toNat then s.burstCounted.burstFire
  else s.burstCounted

end Sys2Proof.Machine
end

