-- ==== Sys2Proof/Machine/Oscillator.lean ====
section
/-! DEFINITION. The beep oscillator (43_beep_oscillator.md): BEEP_START, STOP_ALL and the per-sample advance. -/

namespace Sys2Proof.Machine

/-- R182, BEEP_START: `BeepStart(FREQ, DUR, LVL); RESP <- 0`. -/
def execBeepStart (freq dur : U16) (lvl : U8) (s : State) : Result :=
  .next ((s.withOsc (beepStart s.config freq dur lvl s.osc)).respond 0)

/-- R184, STOP_ALL: `BeepClear(); PatternClear(); RESP <- 0`. -/
def execStopAll (s : State) : Result :=
  .next (((s.withOsc (beepClear s.osc)).withPattern (patternClear s.pattern)).respond 0)

/-- R183: the amplitude, `LEVEL * 128`. -/
def Osc.amplitude (o : Osc) : Int := (o.level.toNat : Int) * 128

/-- R183: the sample of `OscAdvance()`: 0 when inactive, else `+a` while the top bit of PHASE is set, `-a` while it is not. -/
def Osc.sample (o : Osc) : Int :=
  if o.srem = 0 then 0 else if o.phase.getLsbD 31 then o.amplitude else -o.amplitude

/-- R183: the oscillator after `OscAdvance()`. -/
def Osc.advance (o : Osc) : Osc :=
  if o.srem = 0 then o else { o with phase := o.phase + o.step, srem := o.srem - 1 }

end Sys2Proof.Machine
end

