-- ==== Sys2Proof/Machine/PatternSequencer.lean ====
section
/-! DEFINITION. The pattern sequencer (44_pattern_sequencer.md): PATTERN_START and the per-sample advance. -/

namespace Sys2Proof.Machine

/-- R202: the sequencer after `PatternStart(IMM8)`. -/
def patternStarted (c : Config) (imm : U8) : Pattern :=
  { tvalid := true
    tid := tableOf imm
    idx := 0
    srem := 0
    active := decide (0 < (patternSteps c (tableOf imm)).length) }

/-- R202, PATTERN_START. -/
def execPatternStart (imm : U8) (s : State) : Result :=
  .next ((s.withPattern (patternStarted s.config imm)).respond 0)

/-- R203: "if P.SREM > 0: P.SREM <- P.SREM - 1". -/
def Pattern.countDown (p : Pattern) : Pattern := if p.srem = 0 then p else { p with srem := p.srem - 1 }

/-- R203: the sequencer with a step of `n` samples loaded. -/
def Pattern.loaded (p : Pattern) (n : U32) : Pattern := { p with srem := n, idx := p.idx + 1 }

/-- R203: the sequencer past its last step. -/
def Pattern.ended (p : Pattern) : Pattern := { p with active := false }

/-- R203: load the step `st`: its sample count, a BeepStart if it is a tone, and the next index. -/
def State.loadStep (s : State) (st : PatternStep) : State :=
  (s.withPattern (s.pattern.loaded (BitVec.ofNat 32 (sampleCount s.config st.durationMs)))).withOsc
    (if st.isTone then beepStart s.config st.freqHz st.durationMs st.level s.osc else s.osc)

/-- The step at (P.TID, P.IDX); none past the last step (20_memory.md R64). -/
def State.dueStep (s : State) : Option PatternStep := (patternSteps s.config s.pattern.tid)[s.pattern.idx.toNat]?

/-- R203, `PatternAdvance()`. -/
def State.patternAdvance (s : State) : State :=
  if s.pattern.active = false then s
  else if s.pattern.srem = 0 then
    match s.dueStep with
    | none => s.withPattern s.pattern.ended
    | some st => (s.loadStep st).withPattern (s.loadStep st).pattern.countDown
  else s.withPattern s.pattern.countDown

end Sys2Proof.Machine
end

