-- ==== Sys2Proof/Machine/VoicePool.lean ====
section
/-! DEFINITION. The click voice pool (41_click_voice.md): the per-sample advance of a slot and of the pool, and TRIGGER_CLICK. -/

namespace Sys2Proof.Machine

/-- What one call of `VoiceAdvance(i)` leaves: its sample, the slot, and LFSR. -/
structure VoiceStep where
  out   : Int
  voice : Voice
  lfsr  : U16
deriving DecidableEq, Repr

/-- What the advance of all slots leaves: the sum of their samples (45_mixer_tick.md R221), the slots, and LFSR. -/
structure PoolStep where
  clicks : Int
  voices : List Voice
  lfsr   : U16
deriving DecidableEq, Repr

/-- R135, `AttackSample(p)`: `(ATTACK_WAVE[p] * ATTACK_ENV[p]) >>a 16`. -/
def attackSample (c : Config) (attackEnv : List U16) (p : Nat) : Except Fault Int :=
  match readTable .attackWave c.attackWave p, readTable .attackEnv attackEnv p with
  | .ok wave, .ok env => .ok (scaleQ16 (sext16 wave) env)
  | .error f, _ => .error f
  | .ok _, .error f => .error f

/-- R136: the phase increment of the jitter draw `r1`, `max(0, TAIL_BASE_INC + (r1 AND JITTER_MASK) - JITTER_OFFSET)`. -/
def jitterInc (c : Config) (r1 : U16) : Nat :=
  ((c.tailBaseInc.toNat : Int) + (((r1 &&& c.jitterMask).toNat : Int) - (c.jitterOffset.toNat : Int))).toNat

/-- R137: the tail phase after the advance, modulo 2^16. -/
def tailPhase (c : Config) (r1 ph : U16) : U16 := BitVec.ofNat 16 (ph.toNat + jitterInc c r1)

/-- R138: `((sext_16(r2) >>a NOISE_SHIFT) * ENV) >>a 16`. -/
def tailNoise (c : Config) (r2 env : U16) : Int := scaleQ16 (asr (sext16 r2) c.noiseShift) env

/-- R136-R140, `TailSample(i)`: two draws, the advanced phase, the saturated sum of tone and noise under the envelope before its
decay, and then the decayed envelope. -/
def tailSample (c : Config) (lfsr : U16) (v : Voice) : Except Fault VoiceStep :=
  let r1 := nextDraw c lfsr
  let r2 := nextDraw c r1
  let ph := tailPhase c r1 v.ph
  match readTable .sineTable c.sineTable (ph.extractLsb' 8 8).toNat with
  | .error f => .error f
  | .ok wave =>
    .ok { out := sat16 (scaleQ16 (sext16 wave) v.env + tailNoise c r2 v.env)
          voice := { v with ph := ph, env := decayQ16 v.env c.tailDecay }
          lfsr := r2 }

/-- A producing call ends with `V[i].POS <- V[i].POS + 1` (R134). -/
def Voice.nextPos (v : Voice) : Voice := { v with pos := v.pos + 1 }

/-- A tail sample with its slot's POS advanced. -/
def VoiceStep.advancePos (r : VoiceStep) : VoiceStep := { r with voice := r.voice.nextPos }

/-- A deactivating call: ACTIVE <- 0, output 0, nothing else (R134, R141). -/
def deactivated (lfsr : U16) (v : Voice) : VoiceStep := { out := 0, voice := { v with active := false }, lfsr := lfsr }

/-- R134, `VoiceAdvance(i)`. -/
def voiceAdvance (c : Config) (attackEnv : List U16) (lfsr : U16) (v : Voice) : Except Fault VoiceStep :=
  if v.active = false then .ok { out := 0, voice := v, lfsr := lfsr }
  else if c.tailMaxSamples ≤ v.pos.toNat then .ok (deactivated lfsr v)
  else if v.pos.toNat < c.attackSamples then
    match attackSample c attackEnv v.pos.toNat with
    | .error f => .error f
    | .ok out => .ok { out := out, voice := v.nextPos, lfsr := lfsr }
  else if v.env = 0 then .ok (deactivated lfsr v)
  else
    match tailSample c lfsr v with
    | .error f => .error f
    | .ok r => .ok r.advancePos

/-- R143: `VoiceAdvance(i)` on every slot in ascending i, drawing from the shared LFSR in that order; the samples are summed as
integers (45_mixer_tick.md R221). -/
def poolAdvance (c : Config) (attackEnv : List U16) : U16 → List Voice → Except Fault PoolStep
  | lfsr, [] => .ok { clicks := 0, voices := [], lfsr := lfsr }
  | lfsr, v :: vs =>
    match voiceAdvance c attackEnv lfsr v with
    | .error f => .error f
    | .ok r =>
      match poolAdvance c attackEnv r.lfsr vs with
      | .error f => .error f
      | .ok rs => .ok { clicks := r.out + rs.clicks, voices := r.voice :: rs.voices, lfsr := rs.lfsr }

/-- R133, TRIGGER_CLICK: `ClickTrigger(); RESP <- 0`. -/
def execTriggerClick (s : State) : Result := .next (s.clickTrigger.respond 0)

end Sys2Proof.Machine
end

