-- ==== Sys2Proof/Machine/Mixer.lean ====
section
/-! DEFINITION. The mixer and TICK (45_mixer_tick.md). -/

namespace Sys2Proof.Machine

/-- R223: the click contribution under the tone-active test `tone` (R222). -/
def attenuated (c : Config) (tone : Bool) (clicks : Int) : Int :=
  if c.attenEnable && tone then scaleQ16 clicks c.clickAtten else clicks

/-- R220: the state when the voices advance: after the burst advance and the pattern advance. -/
def State.beforeVoices (s : State) : State := s.burstAdvance.patternAdvance

/-- R220-R224: the second half of a TICK, from the state `s` after the burst and pattern advances and the pool's advance `r`. The tone-active test
reads the oscillator before its own advance (R222). -/
def State.mixed (s : State) (r : PoolStep) : State :=
  ((((s.withVoices r.voices).withLfsr r.lfsr).withOsc s.osc.advance).respond
    (toI16 (sat16 (attenuated s.config s.osc.sounding r.clicks + s.osc.sample))))

/-- R220, TICK. -/
def execTick (s : State) : Result :=
  match poolAdvance s.beforeVoices.config s.beforeVoices.attackEnv s.beforeVoices.lfsr s.beforeVoices.voices with
  | .error f => .fault f
  | .ok r => .next (s.beforeVoices.mixed r)

end Sys2Proof.Machine
end

