-- ==== Sys2Proof/Machine/Noise.lean ====
section
/-! DEFINITION. The noise generator's commands (40_noise_generator.md). The generator itself is in Ops.lean, since the voices and the
burst scheduler draw from it too (R114). -/

namespace Sys2Proof.Machine

/-- R115, LFSR_NEXT: `RESP <- Next()`. -/
def execLfsrNext (s : State) : Result :=
  .next ((s.withLfsr (nextDraw s.config s.lfsr)).respond (nextDraw s.config s.lfsr))

/-- R116, LFSR_RANGED: `RESP <- RangedNext(RMIN, RMAX)`. -/
def execLfsrRanged (rmin rmax : U16) (s : State) : Result :=
  .next ((s.withLfsr (nextDraw s.config s.lfsr)).respond (rangedNext s.config rmin rmax s.lfsr))

end Sys2Proof.Machine
end

