-- ==== Sys2Proof/Machine/Dispatch.lean ====
section
/-! DEFINITION. The dispatch of a decoded command word to its meaning, one arm per row of spec/opcode_table.json. -/

namespace Sys2Proof.Machine

def exec (i : Instr) (s : State) : Host.Outcome State Fault Refusal :=
  match i with
  | .nop => Sys2Proof.Machine.execNop s
  | .init => Sys2Proof.Machine.execInit s
  | .tick => Sys2Proof.Machine.execTick s
  | .triggerClick => Sys2Proof.Machine.execTriggerClick s
  | .triggerBurst min max => Sys2Proof.Machine.execTriggerBurst min max s
  | .beepStart freq dur lvl => Sys2Proof.Machine.execBeepStart freq dur lvl s
  | .stopAll => Sys2Proof.Machine.execStopAll s
  | .patternStart imm => Sys2Proof.Machine.execPatternStart imm s
  | .setVolume imm => Sys2Proof.Machine.execSetVolume imm s
  | .getVolume => Sys2Proof.Machine.execGetVolume s
  | .getStatus => Sys2Proof.Machine.execGetStatus s
  | .lfsrNext => Sys2Proof.Machine.execLfsrNext s
  | .lfsrRanged rmin rmax => Sys2Proof.Machine.execLfsrRanged rmin rmax s
  | .reservedD low => Sys2Proof.Machine.execReservedD low s
  | .reservedE low => Sys2Proof.Machine.execReservedE low s
  | .reservedF low => Sys2Proof.Machine.execReservedF low s

end Sys2Proof.Machine
end

