-- ==== Sys2Proof/Machine/Step.lean ====
section
/-! DEFINITION. One step of the engine (00_scope.md R13): the oldest accepted command word is taken and executed. -/

namespace Sys2Proof.Machine

/-- The effect of one command word: the decoded instruction's meaning, or R245 for a word the decoder rejects (30_encoding.md R90). -/
def execWord (w : Word48) (s : State) : Host.Outcome State Fault Refusal :=
  match decode w with
  | .ok i => exec i s
  | .error _ => .next s.raiseIllegal

/-- One step. A configuration outside this spec (R7, R6, R201) is refused (log 3). With no word pending the engine waits and holds all state
(60_exceptions.md R269, 70_reset_and_hazards.md R281; log 5). -/
def step (s : State) : Host.Outcome State Fault Refusal :=
  if s.config.accepted then
    match s.fetch with
    | none => .next s
    | some (w, s1) => execWord w s1
  else .refused .configOutsideSpec

/-- The word numbered `w` in the opcode table, placed where the next step takes its word (log 4, log 12). -/
def State.withFetchWord (s : State) (nbits w : Nat) : State := s.placeNext (tableWord nbits w)

end Sys2Proof.Machine
end

