-- ==== Sys2Proof/Machine/Agents.lean ====
section
/-! DEFINITION. The agents (60_exceptions.md R267) and the ways they can act, one at a time: a word of the control producer arrives, a TICK
of the audio producer arrives, the engine executes its next word, or the power comes on. A run of the whole system is a list of
events; a claim about every list of events is a claim about every interleaving of the producers (20_memory.md R71; log 6). -/

namespace Sys2Proof.Machine

/-- One action of one agent. -/
inductive Event where
  /-- The control producer's word is accepted; also a word other than TICK of the audio producer (R265; log 6). -/
  | control (w : Word48)
  /-- The audio producer's TICK is accepted. -/
  | tick
  /-- The engine takes one step. -/
  | engine
  /-- Power-on reset. -/
  | powerOn
deriving DecidableEq, Repr

/-- What an event does to the machine. -/
def applyEvent (e : Event) (s : State) : Host.Outcome State Fault Refusal :=
  match e with
  | .control w => .next (s.acceptControl w)
  | .tick => .next s.acceptTick
  | .engine => step s
  | .powerOn => .next s.powerOn

/-- A run of the system: the events in order, stopping at the first fault or refusal. -/
def applyEvents : List Event → State → Host.Outcome State Fault Refusal
  | [], s => .next s
  | e :: es, s =>
    match applyEvent e s with
    | .next t => applyEvents es t
    | .fault f => .fault f
    | .refused r => .refused r

end Sys2Proof.Machine
end

