-- ==== Sys2Proof/Safety.lean ====
section
/-! DEFINITION. The terms in which claims are made: the invariant of the reachable states (10_state.md R49), what a safe step is, frames, runs
of several commands, and the quiet state (45_mixer_tick.md R225). -/

namespace Sys2Proof.Machine

/-- The state that an outcome goes on in, if it does. -/
def nextState? : Host.Outcome State Fault Refusal → Option State
  | .next s => some s
  | .fault _ => none
  | .refused _ => none

/-- Commands executed one after another, with their responses in order; none if one of them stops. -/
def runInstrs : List Instr → State → Option (State × List U16)
  | [], s => some (s, [])
  | i :: is, s =>
    match exec i s with
    | .next t =>
      match runInstrs is t with
      | some (u, rs) => some (u, t.resp :: rs)
      | none => none
    | .fault _ => none
    | .refused _ => none

/-- `k` steps of the engine with the response after each; none if one of them stops. -/
def runSteps : Nat → State → Option (State × List U16)
  | 0, s => some (s, [])
  | k + 1, s =>
    match step s with
    | .next t =>
      match runSteps k t with
      | some (u, rs) => some (u, t.resp :: rs)
      | none => none
    | .fault _ => none
    | .refused _ => none

/-- The invariant of the reachable states: R49's list, the shapes of R20 and R41, and R183's "LEVEL >= 1 whenever O.SREM > 0". -/
structure State.Inv (s : State) : Prop where
  /-- The configuration is inside R7. -/
  config_wf : s.config.wf = true
  /-- R49: `LFSR != 0`. -/
  lfsr_ne_zero : s.lfsr ≠ 0
  /-- R22: the pool has MAX_VOICES slots. -/
  pool_length : s.voices.length = s.config.maxVoices
  /-- R49: `V[i].POS <= TAIL_MAX_SAMPLES`. -/
  pos_le : ∀ v ∈ s.voices, v.pos.toNat ≤ s.config.tailMaxSamples
  /-- R49: `V[i].ACTIVE = 1` implies `i = 0`. -/
  only_slot_zero : ∀ v ∈ s.voices.tail, v.active = false
  /-- R49: `B.ACTIVE = 1` implies `B.REM >= 1`. -/
  burst_armed : s.burst.active = true → 1 ≤ s.burst.rem.toNat
  /-- R49: `B.ACTIVE = 0` implies `B.REM = 0`. -/
  burst_idle : s.burst.active = false → s.burst.rem = 0
  /-- R183 [derived]: LEVEL >= 1 whenever O.SREM > 0. -/
  level_pos : s.osc.srem ≠ 0 → 1 ≤ s.osc.level.toNat
  /-- R49: `P.ACTIVE = 1` implies `P.TVALID = 1`. -/
  pattern_valid : s.pattern.active = true → s.pattern.tvalid = true
  /-- R49: `P.IDX <= length(PATTERN_TABLE[P.TID])` when `P.TVALID = 1`. -/
  pattern_idx : s.pattern.tvalid = true → s.pattern.idx.toNat ≤ (patternSteps s.config s.pattern.tid).length
  /-- R49: `VOLUME <= 100` (VOLUME_RESET <= 100 by R6's type). -/
  volume_le : s.volume.toNat ≤ 100
  /-- R41: ATTACK_ENV holds the table of R130. -/
  attack_env : s.attackEnv = attackEnvTable s.config

/-- A safe step: the engine answers a next state. -/
def State.Safe (s : State) : Prop := ∃ t, step s = .next t

/-- R225: nothing is active, so a TICK has nothing to do. -/
structure State.Quiet (s : State) : Prop where
  voices_off : ∀ v ∈ s.voices, v.active = false
  burst_off : s.burst.active = false
  osc_off : s.osc.srem = 0
  pattern_off : s.pattern.active = false

/-- The fields of the state, to say which of them a command may change. -/
inductive Field where
  | config
  | lfsr
  | voices
  | burst
  | osc
  | pattern
  | volume
  | ill
  | attackEnv
  | pending
  | resp
deriving DecidableEq, Repr

/-- The field `f` is the same in two states. -/
def Field.same : Field → State → State → Prop
  | .config, s, t => t.config = s.config
  | .lfsr, s, t => t.lfsr = s.lfsr
  | .voices, s, t => t.voices = s.voices
  | .burst, s, t => t.burst = s.burst
  | .osc, s, t => t.osc = s.osc
  | .pattern, s, t => t.pattern = s.pattern
  | .volume, s, t => t.volume = s.volume
  | .ill, s, t => t.ill = s.ill
  | .attackEnv, s, t => t.attackEnv = s.attackEnv
  | .pending, s, t => t.pending = s.pending
  | .resp, s, t => t.resp = s.resp

/-- A frame: every field outside `changed` is the same in `t` as in `s`. -/
def SameExcept (changed : List Field) (s t : State) : Prop := ∀ f : Field, f ∉ changed → f.same s t

end Sys2Proof.Machine
end

