-- ==== Sys2Proof/Certificates/Slice0/Obligations.lean ====
section
/-! DEFINITION. The statements for the provers. Each docstring names the rules of spec/ it formalises. Every statement about a state is about
every configuration too, since a state carries its configuration (log 1). Integer division `/` on `Int` by a positive number is
the floor of 00_scope.md R9. -/

open Sys2Proof Sys2Proof.Machine

/-! ### Encoding (30_encoding.md, 20_memory.md R66) -/

/-- R87, R88: the decoder reads back every instruction that the encoder writes, with every operand at every value. -/
def Obligations.DecodeEncodeRoundTrip : Prop := ∀ i : Instr, decode (encode i) = .ok i

/-- R90: "strict decoding, so that every legal word has exactly one spelling". -/
def Obligations.DecodedWordHasOneSpelling : Prop := ∀ (w : Word48) (i : Instr), decode w = .ok i → encode i = w

/-- R88, with the words of R95 as numbers: for every word, each legal command is decoded from exactly the words that its format gives
it, and every other word is Illegal (it decodes to a reserved opcode's row, R89, or is rejected, R90). -/
def Obligations.DecoderReadsExactlyTheLegalWords : Prop :=
  ∀ w : Word48,
    (decode w = .ok .nop ↔ w.toNat = 0x000000000000) ∧
    (decode w = .ok .init ↔ w.toNat = 0x100000000000) ∧
    (decode w = .ok .tick ↔ w.toNat = 0x200000000000) ∧
    (decode w = .ok .triggerClick ↔ w.toNat = 0x300000000000) ∧
    (∀ min max : U8, decode w = .ok (.triggerBurst min max) ↔ w.toNat = 0x400000000000 + min.toNat * 2 ^ 8 + max.toNat) ∧
    (∀ (freq dur : U16) (lvl : U8), decode w = .ok (.beepStart freq dur lvl) ↔
      w.toNat = 0x500000000000 + freq.toNat * 2 ^ 24 + dur.toNat * 2 ^ 8 + lvl.toNat) ∧
    (decode w = .ok .stopAll ↔ w.toNat = 0x600000000000) ∧
    (∀ imm : U8, decode w = .ok (.patternStart imm) ↔ w.toNat = 0x700000000000 + imm.toNat) ∧
    (∀ imm : U8, decode w = .ok (.setVolume imm) ↔ w.toNat = 0x800000000000 + imm.toNat) ∧
    (decode w = .ok .getVolume ↔ w.toNat = 0x900000000000) ∧
    (decode w = .ok .getStatus ↔ w.toNat = 0xA00000000000) ∧
    (decode w = .ok .lfsrNext ↔ w.toNat = 0xB00000000000) ∧
    (∀ rmin rmax : U16, decode w = .ok (.lfsrRanged rmin rmax) ↔
      w.toNat = 0xC00000000000 + rmin.toNat * 2 ^ 16 + rmax.toNat)

/-- The bits that the format of opcode `op` marks `0` (R82-R86 and the table of R87), for the defined opcodes 0x0-0xC. -/
def reservedBitsOf (op : Nat) : Word48 :=
  match op with
  | 0x4 => 0x0FFFFFFF0000#48
  | 0x5 => 0x0F0000000000#48
  | 0x7 => 0x0FFFFFFFFF00#48
  | 0x8 => 0x0FFFFFFFFF00#48
  | 0xC => 0x0FFF00000000#48
  | _ => 0x0FFFFFFFFFFF#48

/-- R89, R90, R245: a word with a reserved OP (0xD-0xF), or with a defined OP and a 1 in any bit its format marks `0`, sets STATUS.ILL,
responds 0 and changes nothing else when the engine takes it: no draw, no engine state but ILL. -/
def Obligations.IllegalWordsOnlyRaiseIllegal : Prop :=
  ∀ (s : State) (w : Word48) (rest : List Word48), s.config.accepted = true → s.pending = w :: rest →
    (0xD ≤ (opField w).toNat ∨ (opField w).toNat ≤ 0xC ∧ w &&& reservedBitsOf (opField w).toNat ≠ 0) →
    step s = .next { s with pending := rest, ill := true, resp := 0 }

/-- R95: the assembler's words as numbers, all 13 rows of its table, and "An assembler refuses an operand that does not fit its field. It does not truncate". -/
def Obligations.AssemblerEncodesOrRefuses : Prop :=
  assemble .nop = some [0x000000000000#48] ∧
  assemble .init = some [0x100000000000#48] ∧
  assemble .tick = some [0x200000000000#48] ∧
  assemble .triggerClick = some [0x300000000000#48] ∧
  assemble .stopAll = some [0x600000000000#48] ∧
  assemble .getVolume = some [0x900000000000#48] ∧
  assemble .getStatus = some [0xA00000000000#48] ∧
  assemble .lfsrNext = some [0xB00000000000#48] ∧
  (∀ min max : Nat, assemble (.triggerBurst min max) =
    if min < 2 ^ 8 ∧ max < 2 ^ 8 then some [BitVec.ofNat 48 (0x400000000000 + min * 2 ^ 8 + max)] else none) ∧
  (∀ freq dur lvl : Nat, assemble (.beepStart freq dur lvl) =
    if freq < 2 ^ 16 ∧ dur < 2 ^ 16 ∧ lvl < 2 ^ 8 then
      some [BitVec.ofNat 48 (0x500000000000 + freq * 2 ^ 24 + dur * 2 ^ 8 + lvl)] else none) ∧
  (∀ id : Nat, assemble (.patternStart id) =
    if id < 2 ^ 8 then some [BitVec.ofNat 48 (0x700000000000 + id)] else none) ∧
  (∀ pct : Nat, assemble (.setVolume pct) =
    if pct < 2 ^ 8 then some [BitVec.ofNat 48 (0x800000000000 + pct)] else none) ∧
  (∀ rmin rmax : Nat, assemble (.lfsrRanged rmin rmax) =
    if rmin < 2 ^ 16 ∧ rmax < 2 ^ 16 then some [BitVec.ofNat 48 (0xC00000000000 + rmin * 2 ^ 16 + rmax)] else none)

/-- R96: the pseudo-instructions and their expansions. -/
def Obligations.PseudoInstructionsExpand : Prop :=
  (∀ n : Nat, 1 ≤ n → assemble (.ticks n) = some (List.replicate n 0x200000000000#48)) ∧
  assemble (.patternNamed .single) = assemble (.patternStart 0) ∧
  assemble (.patternNamed .double) = assemble (.patternStart 1) ∧
  assemble (.patternNamed .error) = assemble (.patternStart 2) ∧
  assemble (.patternNamed .alert) = assemble (.patternStart 3) ∧
  assemble .beepOff = some [0x500000000000#48] ∧
  (∀ n : Nat, assemble (.burst n) = assemble (.triggerBurst n n))

/-- R66: a command word travels most significant byte first, byte k holding bits [47-8k:40-8k]; a response word too; and a word is
read only when all six of its bytes are there (R283). -/
def Obligations.TransportIsMostSignificantByteFirst : Prop :=
  (∀ (w : Word48) (rest : List Byte), wordOfBytes (bytesOfWord w ++ rest) = some (w, rest)) ∧
  (∀ (w : Word48) (k : Nat), k < 6 →
    (bytesOfWord w)[k]? = some (BitVec.ofNat 8 (w.toNat / 2 ^ (8 * (5 - k))))) ∧
  (∀ bs : List Byte, bs.length < 6 → wordOfBytes bs = none) ∧
  (∀ r : U16, bytesOfResponse r = [BitVec.ofNat 8 (r.toNat / 2 ^ 8), BitVec.ofNat 8 r.toNat])

/-- R88, R95: a few words written out bit by bit from the opcode table decode to what they stand for. -/
def Obligations.WordsOfTheTableDecode : Prop :=
  decode 0b010000000000000000000000000000000000001100000101#48 = .ok (.triggerBurst 3 5) ∧
  decode 0b010100000000001111101000000000001100100011111111#48 = .ok (.beepStart 1000 200 255) ∧
  decode 0b011100000000000000000000000000000000000000000001#48 = .ok (.patternStart 1) ∧
  decode 0b110000000000000000000000001000000000001000000000#48 = .ok (.lfsrRanged 32 512) ∧
  decode 0b001000000000000000000000000000000000000000000000#48 = .ok .tick ∧
  decode 0b000000000000000000000000000000000000000000000001#48 = .error (.reservedBits "NOP")

/-! ### Noise generator (40_noise_generator.md) -/

/-- R110: one shift in each form; 0 maps to 0. FIB shifts right and takes bits 0, 2, 3 and 5 into bit 15; GAL halves, and
toggles 0xB400 when bit 0 was 1. -/
def Obligations.LfsrStepFollowsItsForm : Prop :=
  (∀ (s : U16) (k : Nat), k < 15 → (lfsrStep .fib s).getLsbD k = s.getLsbD (k + 1)) ∧
  (∀ s : U16, (lfsrStep .fib s).getLsbD 15 = (s.getLsbD 0 ^^ s.getLsbD 2 ^^ s.getLsbD 3 ^^ s.getLsbD 5)) ∧
  (∀ s : U16, lfsrStep .gal s =
    if s.toNat % 2 = 1 then BitVec.ofNat 16 (s.toNat / 2) ^^^ 0xB400#16 else BitVec.ofNat 16 (s.toNat / 2)) ∧
  (∀ f : LfsrForm, lfsrStep f 0 = 0)

/-- R110, R112 [derived]: "Both forms have period 65535 from every non-zero state", and the sequence visits every non-zero value. -/
def Obligations.LfsrHasFullPeriod : Prop :=
  ∀ (f : LfsrForm) (s : U16), s ≠ 0 →
    Nat.iterate (lfsrStep f) 65535 s = s ∧
    (∀ n : Nat, 0 < n → n < 65535 → Nat.iterate (lfsrStep f) n s ≠ s) ∧
    (∀ u : U16, u ≠ 0 → ∃ n : Nat, n < 65535 ∧ Nat.iterate (lfsrStep f) n s = u)

/-- R111 [derived], 90_conflicts.md C7: from a non-zero register the guard never fires, no draw is 0, and two consecutive draws differ
(95_test_vectors.md E4). -/
def Obligations.DrawsAreNonzeroAndChange : Prop :=
  ∀ (c : Config) (r : U16), r ≠ 0 →
    nextDraw c r = lfsrStep c.lfsrForm r ∧ nextDraw c r ≠ 0 ∧ nextDraw c (nextDraw c r) ≠ nextDraw c r

/-- R111, R115: LFSR_NEXT completes in every state: the register steps, a stepped 0 is replaced by LFSR_RESEED, and the response is the
new register value, never 0. -/
def Obligations.LfsrNextRespondsTheNewRegister : Prop :=
  ∀ s : State, ∃ d : U16,
    (lfsrStep s.config.lfsrForm s.lfsr ≠ 0 → d = lfsrStep s.config.lfsrForm s.lfsr) ∧
    (lfsrStep s.config.lfsrForm s.lfsr = 0 → d = s.config.lfsrReseed) ∧
    (s.config.lfsrReseed ≠ 0 → d ≠ 0) ∧
    exec .lfsrNext s = .next { s with lfsr := d, resp := d }

/-- R113, R116: LFSR_RANGED completes in every state and for every pair of operands, consumes one draw, and responds its place in
the inclusive range, the operands swapped when RMIN > RMAX; (0, 65535) responds the raw draw. -/
def Obligations.LfsrRangedRespondsInRange : Prop :=
  ∀ (s : State) (rmin rmax : U16), ∃ v : U16,
    exec (.lfsrRanged rmin rmax) s = .next { s with lfsr := nextDraw s.config s.lfsr, resp := v } ∧
    v.toNat = min rmin.toNat rmax.toNat +
      (nextDraw s.config s.lfsr).toNat % (max rmin.toNat rmax.toNat - min rmin.toNat rmax.toNat + 1) ∧
    min rmin.toNat rmax.toNat ≤ v.toNat ∧ v.toNat ≤ max rmin.toNat rmax.toNat ∧
    (rmin = 0 → rmax = 65535 → v = nextDraw s.config s.lfsr)

/-! ### Click voices (41_click_voice.md) -/

/-- R130: ATTACK_ENV is built at INIT and at reset: entry 0 is ATTACK_ENV_INIT, each later entry one Q0.16 multiply of the one before;
[derived] the table is non-increasing. -/
def Obligations.AttackEnvelopeDecaysByMultiplication : Prop :=
  ∀ c : Config,
    (State.resetWith c).attackEnv = attackEnvTable c ∧
    (∀ s : State, s.config = c → ∃ t : State, exec .init s = .next t ∧ t.attackEnv = attackEnvTable c) ∧
    (attackEnvTable c).length = c.attackSamples ∧
    (1 ≤ c.attackSamples → (attackEnvTable c)[0]? = some c.attackEnvInit) ∧
    (∀ (k : Nat) (e f : U16), (attackEnvTable c)[k]? = some e → (attackEnvTable c)[k + 1]? = some f →
      f.toNat = e.toNat * c.attackDecay.toNat / 65536 ∧ f.toNat ≤ e.toNat)

/-- R131, R132, R133: TRIGGER_CLICK completes in every state: every slot is cleared, slot 0 is armed, STATUS bit 4 reads 1
afterwards, and nothing else changes (no draw, no burst, no oscillator, no sequencer). A pool without slot 0 breaks R7. -/
def Obligations.TriggerClickArmsSlotZero : Prop :=
  ∀ s : State, ∃ t : State, exec .triggerClick s = .next t ∧ t.resp = 0 ∧
    t.voices.length = s.voices.length ∧
    (s.voices ≠ [] → t.voices[0]? = some { active := true, pos := 0, env := s.config.tailEnvInit, ph := 0 } ∧
      t.status.getLsbD 4 = true) ∧
    (∀ i : Nat, 0 < i → i < s.voices.length → t.voices[i]? = some { active := false, pos := 0, env := 0, ph := 0 }) ∧
    SameExcept [.voices, .resp] s t

/-- R134, R135: in the attack segment the slot's sample is `(ATTACK_WAVE[POS] * ATTACK_ENV[POS]) >>a 16`; POS counts up; ENV, PH, ACTIVE and
LFSR keep their values; [derived] the sample lies in i16. -/
def Obligations.AttackSampleScalesTheRecordedWave : Prop :=
  ∀ (c : Config) (attackEnv : List U16) (lfsr wave env : U16) (v : Voice),
    v.active = true → v.pos.toNat < c.tailMaxSamples → v.pos.toNat < c.attackSamples →
    c.attackWave[v.pos.toNat]? = some wave → attackEnv[v.pos.toNat]? = some env →
    voiceAdvance c attackEnv lfsr v =
      .ok { out := wave.toInt * (env.toNat : Int) / 65536, voice := { v with pos := v.pos + 1 }, lfsr := lfsr } ∧
    -32768 ≤ wave.toInt * (env.toNat : Int) / 65536 ∧ wave.toInt * (env.toNat : Int) / 65536 ≤ 32767

/-- R136-R140: a tail sample: two draws in this order (jitter, noise), the phase advanced modulo 2^16 by the clamped increment, the sine
entry at the phase's top byte under the old envelope, the noise under the old envelope, the saturated sum, the decayed
envelope, and POS counting up. -/
def Obligations.TailSampleFollowsTheRules : Prop :=
  ∀ (c : Config) (attackEnv : List U16) (lfsr : U16) (v : Voice) (r1 r2 ph wave : U16) (inc : Nat) (tone noise : Int),
    v.active = true → v.pos.toNat < c.tailMaxSamples → c.attackSamples ≤ v.pos.toNat → v.env ≠ 0 →
    r1 = nextDraw c lfsr → r2 = nextDraw c r1 →
    (inc : Int) = max 0 ((c.tailBaseInc.toNat : Int) + (((r1 &&& c.jitterMask).toNat : Int) - (c.jitterOffset.toNat : Int))) →
    ph.toNat = (v.ph.toNat + inc) % 65536 →
    c.sineTable[ph.toNat / 256]? = some wave →
    tone = wave.toInt * (v.env.toNat : Int) / 65536 →
    noise = r2.toInt / (2 : Int) ^ c.noiseShift * (v.env.toNat : Int) / 65536 →
    voiceAdvance c attackEnv lfsr v =
      .ok { out := max (-32768) (min 32767 (tone + noise))
            voice := { active := true, pos := v.pos + 1
                       env := BitVec.ofNat 16 (v.env.toNat * c.tailDecay.toNat / 65536), ph := ph }
            lfsr := r2 }

/-- R134, R141: the calls that produce nothing: an inactive slot is left alone; an active slot whose POS has reached TAIL_MAX_SAMPLES, or
whose ENV is 0 at the start of a tail call, clears ACTIVE, outputs 0, draws nothing and keeps POS, ENV and PH. -/
def Obligations.VoiceDeactivatesOnTheNextCall : Prop :=
  ∀ (c : Config) (attackEnv : List U16) (lfsr : U16) (v : Voice),
    (v.active = false → voiceAdvance c attackEnv lfsr v = .ok { out := 0, voice := v, lfsr := lfsr }) ∧
    (v.active = true → c.tailMaxSamples ≤ v.pos.toNat →
      voiceAdvance c attackEnv lfsr v = .ok { out := 0, voice := { v with active := false }, lfsr := lfsr }) ∧
    (v.active = true → v.pos.toNat < c.tailMaxSamples → c.attackSamples ≤ v.pos.toNat → v.env = 0 →
      voiceAdvance c attackEnv lfsr v = .ok { out := 0, voice := { v with active := false }, lfsr := lfsr })

/-- R140 [derived]: "For every ENV > 0 and TAIL_DECAY < 65536, the new ENV is strictly less than the old one". -/
def Obligations.TailEnvelopeStrictlyDecreases : Prop :=
  ∀ (c : Config) (attackEnv : List U16) (lfsr : U16) (v : Voice) (r : VoiceStep),
    voiceAdvance c attackEnv lfsr v = .ok r → v.active = true → c.attackSamples ≤ v.pos.toNat → r.voice.active = true →
    r.voice.env.toNat < v.env.toNat

/-- R135, R139: "output of a single voice is always within the 16-bit signed range before mixing". -/
def Obligations.VoiceOutputIsInRange : Prop :=
  ∀ (c : Config) (attackEnv : List U16) (lfsr : U16) (v : Voice) (r : VoiceStep),
    voiceAdvance c attackEnv lfsr v = .ok r → -32768 ≤ r.out ∧ r.out ≤ 32767

/-- R142, R221: with every slot but slot 0 inactive, the pool's advance is slot 0's: its sample is the click sum, its draws are the draws,
and the other slots are untouched. -/
def Obligations.PoolIsMonophonic : Prop :=
  ∀ (c : Config) (attackEnv : List U16) (lfsr : U16) (v : Voice) (vs : List Voice) (r : PoolStep),
    (∀ u ∈ vs, u.active = false) → poolAdvance c attackEnv lfsr (v :: vs) = .ok r →
    ∃ q : VoiceStep, voiceAdvance c attackEnv lfsr v = .ok q ∧ r.clicks = q.out ∧ r.voices = q.voice :: vs ∧ r.lfsr = q.lfsr

/-- R143, R221: whatever slots are active, the click sum of a pool of n slots lies in [-32768 n, 32767 n]. -/
def Obligations.ClickSumIsBounded : Prop :=
  ∀ (c : Config) (attackEnv : List U16) (lfsr : U16) (vs : List Voice) (r : PoolStep),
    poolAdvance c attackEnv lfsr vs = .ok r →
    r.voices.length = vs.length ∧ -32768 * (vs.length : Int) ≤ r.clicks ∧ r.clicks ≤ 32767 * (vs.length : Int)

/-- R144: in any state of the invariant with no burst armed, TRIGGER_CLICK and then at least TAIL_MAX_SAMPLES + 1 TICKs leave every
slot inactive, whatever tone or pattern sounds meanwhile. -/
def Obligations.ClickEndsWithinItsTail : Prop :=
  ∀ (s : State) (n : Nat), s.Inv → s.burst.active = false → s.config.tailMaxSamples + 1 ≤ n →
    ∃ (t : State) (rs : List U16), runInstrs (.triggerClick :: List.replicate n .tick) s = some (t, rs) ∧
      (∀ v ∈ t.voices, v.active = false)

/-! ### Burst scheduler (42_burst_scheduler.md) -/

/-- R160: TRIGGER_BURST completes in every state and for every pair of counts: (0, 0) changes nothing but the response; any other
pair arms a burst with a count drawn from the clamped counts and then a delay drawn from the window, two draws in all. -/
def Obligations.TriggerBurstArmsADrawnBurst : Prop :=
  ∀ (s : State) (mn mx : U8),
    (mn = 0 → mx = 0 → exec (.triggerBurst mn mx) s = .next { s with resp := 0 }) ∧
    (∀ (r1 r2 : U16) (lo hi dlo dhi : Nat), ¬ (mn = 0 ∧ mx = 0) →
      r1 = nextDraw s.config s.lfsr → r2 = nextDraw s.config r1 →
      lo = max mn.toNat 1 → hi = max mx.toNat lo →
      dlo = min s.config.burstDelayMin.toNat s.config.burstDelayMax.toNat →
      dhi = max s.config.burstDelayMin.toNat s.config.burstDelayMax.toNat →
      ∃ b : Burst, exec (.triggerBurst mn mx) s = .next { s with burst := b, lfsr := r2, resp := 0 } ∧
        b.active = true ∧ b.rem.toNat = lo + r1.toNat % (hi - lo + 1) ∧ lo ≤ b.rem.toNat ∧ b.rem.toNat ≤ hi ∧
        b.delay.toNat = dlo + r2.toNat % (dhi - dlo + 1) ∧ dlo ≤ b.delay.toNat ∧ b.delay.toNat ≤ dhi)

/-- R161: one burst advance. Inactive: nothing. Active with DELAY of 2 or more: DELAY counts down. Active with DELAY at most 1: DELAY is 0,
never below; with REM = 0 (which no run reaches) nothing more happens, and with REM >= 1 the click trigger fires and REM counts down; after the last one the burst is inactive and nothing is drawn,
otherwise the next delay is drawn. -/
def Obligations.BurstAdvanceCountsDownAndFires : Prop :=
  ∀ s : State,
    (s.burst.active = false → s.burstAdvance = s) ∧
    (s.burst.active = true → 2 ≤ s.burst.delay.toNat →
      s.burstAdvance = { s with burst := { s.burst with delay := s.burst.delay - 1 } }) ∧
    (s.burst.active = true → s.burst.delay.toNat ≤ 1 → s.burst.rem = 0 →
      s.burstAdvance = { s with burst := { s.burst with delay := 0 } }) ∧
    (s.burst.active = true → s.burst.delay.toNat ≤ 1 → s.burst.rem = 1 →
      s.burstAdvance = { s with voices := triggeredPool s.config s.voices, burst := { active := false, rem := 0, delay := 0 } }) ∧
    (s.burst.active = true → s.burst.delay.toNat ≤ 1 → 2 ≤ s.burst.rem.toNat →
      s.burstAdvance =
        { s with
          voices := triggeredPool s.config s.voices
          burst := { active := true
                     rem := s.burst.rem - 1
                     delay := rangedNext s.config s.config.burstDelayMin s.config.burstDelayMax s.lfsr }
          lfsr := nextDraw s.config s.lfsr })

/-- A burst advance of `s` fires (R161): the burst is active, a click remains and DELAY is at most 1. -/
def firesNow (s : State) : Bool :=
  s.burst.active && (decide (s.burst.delay.toNat ≤ 1) && decide (1 ≤ s.burst.rem.toNat))

/-- How many of the first `k` burst advances from `s` fire. -/
def firesIn : Nat → State → Nat
  | 0, _ => 0
  | k + 1, s => (if firesNow s then 1 else 0) + firesIn k s.burstAdvance

/-- R163: the first fire after a burst is armed with delay d is at index max(d, 1) - 1: no earlier advance fires or touches a voice, and
that one fires. -/
def Obligations.FirstFireComesAfterTheDelay : Prop :=
  ∀ s : State, s.burst.active = true → 1 ≤ s.burst.rem.toNat →
    (∀ k : Nat, k < max s.burst.delay.toNat 1 →
      (Nat.iterate State.burstAdvance k s).voices = s.voices ∧ (Nat.iterate State.burstAdvance k s).lfsr = s.lfsr ∧
      (Nat.iterate State.burstAdvance k s).burst.rem = s.burst.rem ∧ firesIn k s = 0) ∧
    firesNow (Nat.iterate State.burstAdvance (max s.burst.delay.toNat 1 - 1) s) = true ∧
    (Nat.iterate State.burstAdvance (max s.burst.delay.toNat 1) s).voices = triggeredPool s.config s.voices

/-- How many of the next `k` TICKs from `s` fire a click: those that start in a state whose burst advance fires. -/
def ticksThatFire : Nat → State → Nat
  | 0, _ => 0
  | k + 1, s =>
    (if firesNow s then 1 else 0) +
      match exec .tick s with
      | .next t => ticksThatFire k t
      | .fault _ => 0
      | .refused _ => 0

/-- R163 [derived]: a burst with REM = n fires exactly n clicks and is inactive from then on; it takes at most 65535 TICKs per click. Said of
TICKs, from every state of the invariant (tail samples draw between two redraws, a tone or pattern may sound), and of bare burst
advances, from every state. -/
def Obligations.BurstFiresExactlyItsCount : Prop :=
  (∀ (s : State) (k : Nat), s.Inv → s.burst.active = true → 65535 * s.burst.rem.toNat ≤ k →
    ∃ (t : State) (rs : List U16), runInstrs (List.replicate k .tick) s = some (t, rs) ∧
      ticksThatFire k s = s.burst.rem.toNat ∧ t.burst.active = false ∧ t.burst.rem = 0) ∧
  (∀ (s : State) (k : Nat), s.burst.active = true → 1 ≤ s.burst.rem.toNat → 65535 * s.burst.rem.toNat ≤ k →
    firesIn k s = s.burst.rem.toNat ∧ (Nat.iterate State.burstAdvance k s).burst.active = false ∧
    (Nat.iterate State.burstAdvance k s).burst.rem = 0)

/-! ### Beep oscillator (43_beep_oscillator.md) -/

/-- R180, R181, R182: BEEP_START completes for every operand: zero duration or zero level zeroes the four oscillator fields; otherwise the
level, the exact sample count and the exact rounded phase step of the clamped frequency are stored, and the phase is kept unless
BEEP_PHASE_RESET. Nothing but the oscillator and the response changes. -/
def Obligations.BeepStartStartsOrSilences : Prop :=
  ∀ (s : State) (freq dur : U16) (lvl : U8), s.config.wf = true →
    ∃ o : Osc, exec (.beepStart freq dur lvl) s = .next { s with osc := o, resp := 0 } ∧
      (dur = 0 ∨ lvl = 0 → o = { phase := 0, step := 0, srem := 0, level := 0 }) ∧
      (dur ≠ 0 → lvl ≠ 0 →
        o.level = lvl ∧
        o.srem.toNat = (dur.toNat * s.config.sampleRate + 999) / 1000 ∧
        o.step.toNat = (min (max freq.toNat s.config.minFreqHz.toNat) s.config.maxFreqHz.toNat * 2 ^ 33 + s.config.sampleRate) /
          (2 * s.config.sampleRate) ∧
        (s.config.beepPhaseReset = true → o.phase = 0) ∧ (s.config.beepPhaseReset = false → o.phase = s.osc.phase))

/-- R183: the oscillator's advance: silent and unchanged when SREM = 0; otherwise minus or plus LEVEL * 128 by the top bit of PHASE
before the add, PHASE advanced modulo 2^32, SREM counted down, STEP and LEVEL kept; the sample lies in [-32640, 32640] and is
not 0 when LEVEL >= 1. -/
def Obligations.OscillatorAdvanceIsASquareWave : Prop :=
  ∀ o : Osc,
    (o.srem = 0 → o.sample = 0 ∧ o.advance = o) ∧
    (o.srem ≠ 0 →
      (2 ^ 31 ≤ o.phase.toNat → o.sample = (o.level.toNat : Int) * 128) ∧
      (o.phase.toNat < 2 ^ 31 → o.sample = -((o.level.toNat : Int) * 128)) ∧
      (1 ≤ o.level.toNat → o.sample ≠ 0) ∧
      o.advance.phase.toNat = (o.phase.toNat + o.step.toNat) % 2 ^ 32 ∧ o.advance.srem.toNat + 1 = o.srem.toNat ∧
      o.advance.step = o.step ∧ o.advance.level = o.level) ∧
    -32640 ≤ o.sample ∧ o.sample ≤ 32640

/-- R184 (with R181, R206): STOP_ALL completes in every state, zeroes the oscillator and the sequencer, leaves the voices, the burst and
everything else, and STATUS bits 2 and 3 read 0 afterwards. -/
def Obligations.StopAllClearsToneAndPattern : Prop :=
  ∀ s : State, ∃ t : State, exec .stopAll s = .next t ∧ t.resp = 0 ∧
    t.osc = { phase := 0, step := 0, srem := 0, level := 0 } ∧
    t.pattern = { tvalid := false, tid := 0, idx := 0, srem := 0, active := false } ∧
    t.status.getLsbD 2 = false ∧ t.status.getLsbD 3 = false ∧ SameExcept [.osc, .pattern, .resp] s t

/-- R185: with nothing else active, a tone with SREM = n and LEVEL >= 1 gives exactly n non-zero responses in the next n TICKs, the k-th
one +LEVEL*128 or -LEVEL*128 by the top bit of PHASE + k*STEP, and then only 0. -/
def Obligations.ToneSoundsForItsSamples : Prop :=
  ∀ (s : State) (m : Nat), (∀ v ∈ s.voices, v.active = false) → s.burst.active = false → s.pattern.active = false →
    1 ≤ s.osc.level.toNat →
    ∃ (t : State) (rs : List U16), runInstrs (List.replicate (s.osc.srem.toNat + m) .tick) s = some (t, rs) ∧
      rs.length = s.osc.srem.toNat + m ∧
      (∀ (k : Nat) (r : U16), rs[k]? = some r → k < s.osc.srem.toNat →
        r ≠ 0 ∧
        (2 ^ 31 ≤ (s.osc.phase.toNat + k * s.osc.step.toNat) % 2 ^ 32 → r.toInt = (s.osc.level.toNat : Int) * 128) ∧
        ((s.osc.phase.toNat + k * s.osc.step.toNat) % 2 ^ 32 < 2 ^ 31 → r.toInt = -((s.osc.level.toNat : Int) * 128))) ∧
      (∀ (k : Nat) (r : U16), rs[k]? = some r → s.osc.srem.toNat ≤ k → r = 0)

/-! ### Pattern sequencer (44_pattern_sequencer.md) -/

/-- R200, R202: PATTERN_START completes in every state and for every id: ids above 3 are Single, the sequencer starts before step 0,
it is active exactly when the table is not empty, and the oscillator and everything else are left alone. -/
def Obligations.PatternStartSelectsItsTable : Prop :=
  ∀ (s : State) (imm : U8), ∃ p : Pattern, exec (.patternStart imm) s = .next { s with pattern := p, resp := 0 } ∧
    p.tvalid = true ∧ p.tid.toNat = (if imm.toNat ≤ 3 then imm.toNat else 0) ∧ p.idx = 0 ∧ p.srem = 0 ∧
    (p.active = true ↔ patternSteps s.config p.tid ≠ []) ∧
    patternSteps s.config p.tid =
      (if imm.toNat = 1 then s.config.patternTable.double
       else if imm.toNat = 2 then s.config.patternTable.error
       else if imm.toNat = 3 then s.config.patternTable.alert else s.config.patternTable.single)

/-- R203: one sequencer advance: inactive, counting down, past the last step, or loading a step. A tone step leaves the oscillator as
BEEP_START with the step's operands would; a gap step leaves it alone (R205). -/
def Obligations.PatternAdvanceLoadsSteps : Prop :=
  ∀ s : State, s.config.wf = true →
    (s.pattern.active = false → s.patternAdvance = s) ∧
    (s.pattern.active = true → s.pattern.srem ≠ 0 →
      s.patternAdvance = { s with pattern := { s.pattern with srem := s.pattern.srem - 1 } }) ∧
    (s.pattern.active = true → s.pattern.srem = 0 → (patternSteps s.config s.pattern.tid).length ≤ s.pattern.idx.toNat →
      s.patternAdvance = { s with pattern := { s.pattern with active := false } }) ∧
    (∀ (st : PatternStep) (u : State), s.pattern.active = true → s.pattern.srem = 0 →
      (patternSteps s.config s.pattern.tid)[s.pattern.idx.toNat]? = some st →
      exec (.beepStart st.freqHz st.durationMs st.level) s = .next u →
      s.patternAdvance =
        { s with
          osc := if st.isTone then u.osc else s.osc
          pattern := { s.pattern with
            idx := s.pattern.idx + 1
            srem := BitVec.ofNat 32 ((st.durationMs.toNat * s.config.sampleRate + 999) / 1000 - 1) } })

/-- The number of samples of the first `k` steps of a list, each `ceil(durationMs * SAMPLE_RATE / 1000)`. -/
def samplesOfFirst (c : Config) (steps : List PatternStep) (k : Nat) : Nat :=
  ((steps.take k).map (fun st => (st.durationMs.toNat * c.sampleRate + 999) / 1000)).sum

/-- R204: after PATTERN_START of a table none of whose steps has duration 0, step k is loaded by the advance of index n_0 + ... + n_{k-1},
and P.ACTIVE clears in the advance of index n_0 + ... + n_{L-1}. -/
def Obligations.PatternStepsAreTimedBySamples : Prop :=
  ∀ (s : State) (steps : List PatternStep), s.config.wf = true → s.pattern.active = true → s.pattern.idx = 0 →
    s.pattern.srem = 0 → steps = patternSteps s.config s.pattern.tid → (∀ st ∈ steps, st.durationMs ≠ 0) →
    (∀ k : Nat, k < steps.length →
      (Nat.iterate State.patternAdvance (samplesOfFirst s.config steps k) s).pattern.active = true ∧
      (Nat.iterate State.patternAdvance (samplesOfFirst s.config steps k) s).pattern.idx.toNat = k ∧
      (Nat.iterate State.patternAdvance (samplesOfFirst s.config steps k + 1) s).pattern.idx.toNat = k + 1) ∧
    (Nat.iterate State.patternAdvance (samplesOfFirst s.config steps steps.length) s).pattern.active = true ∧
    (Nat.iterate State.patternAdvance (samplesOfFirst s.config steps steps.length + 1) s).pattern.active = false

/-! ### Mixer and TICK (45_mixer_tick.md) -/

/-- R65, R220, R260: TICK completes in every state whose configuration is inside R7 and whose ATTACK_ENV has its length; it leaves VOLUME,
STATUS.ILL, ATTACK_ENV, the configuration and the pending words alone. -/
def Obligations.TickCompletes : Prop :=
  ∀ s : State, s.config.wf = true → s.attackEnv.length = s.config.attackSamples →
    ∃ t : State, exec .tick s = .next t ∧ SameExcept [.lfsr, .voices, .burst, .osc, .pattern, .resp] s t

/-- R220-R224: whenever the pool's advance after the burst and pattern advances is `r`, TICK's response is the saturated sum of the click
sum, attenuated exactly when ATTEN_ENABLE and a tone is active, and the oscillator's sample; every sub-unit is advanced
once, in the order burst, pattern, voices, oscillator, and nothing else changes (no state records a saturation). -/
def Obligations.TickMixesAndSaturates : Prop :=
  ∀ (s s1 s2 : State) (r : PoolStep) (clicks : Int), s1 = s.burstAdvance → s2 = s1.patternAdvance →
    poolAdvance s2.config s2.attackEnv s2.lfsr s2.voices = .ok r →
    clicks = (if s.config.attenEnable = true ∧ s2.osc.srem ≠ 0 then r.clicks * (s.config.clickAtten.toNat : Int) / 65536
              else r.clicks) →
    ∃ t : State, exec .tick s = .next t ∧
      t.resp.toInt = max (-32768) (min 32767 (clicks + s2.osc.sample)) ∧
      t.voices = r.voices ∧ t.lfsr = r.lfsr ∧ t.osc = s2.osc.advance ∧ t.burst = s1.burst ∧ t.pattern = s2.pattern ∧
      SameExcept [.lfsr, .voices, .burst, .osc, .pattern, .resp] s t

/-- R225, Silence: a TICK with nothing active responds 0 and changes no other state. -/
def Obligations.QuietTickIsSilent : Prop := ∀ s : State, s.Quiet → exec .tick s = .next { s with resp := 0 }

/-- R225, Silence: after INIT, any number of TICKs respond 0 every time and leave the reset state, with the words still
pending (the model's choice, log 11). -/
def Obligations.SilenceAfterInit : Prop :=
  ∀ (s : State) (n : Nat), runInstrs (.init :: List.replicate n .tick) s =
    some ({ State.resetWith s.config with pending := s.pending }, List.replicate (n + 1) 0)

/-- R225, 90_conflicts.md C9: in a state of the invariant a TICK consumes at most two draws. -/
def Obligations.TickDrawsAtMostTwice : Prop :=
  ∀ s t : State, s.Inv → exec .tick s = .next t →
    t.lfsr = s.lfsr ∨ t.lfsr = nextDraw s.config s.lfsr ∨ t.lfsr = nextDraw s.config (nextDraw s.config s.lfsr)

/-- R161, R285: a burst fire in a TICK makes the new click's sample 0 part of that TICK's output: in a state of the invariant with the fire
due, no tone and no pattern, the response is attack sample 0, and slot 0 has produced one sample of the attack. -/
def Obligations.FireSoundsInItsOwnTick : Prop :=
  ∀ (s : State) (wave env : U16), s.Inv → s.burst.active = true → s.burst.delay.toNat ≤ 1 → s.osc.srem = 0 →
    s.pattern.active = false → s.config.attackWave[0]? = some wave → s.attackEnv[0]? = some env →
    ∃ t : State, exec .tick s = .next t ∧ t.resp.toInt = wave.toInt * (env.toNat : Int) / 65536 ∧
      t.voices[0]? = some { active := true, pos := 1, env := s.config.tailEnvInit, ph := 0 } ∧
      t.burst.rem.toNat + 1 = s.burst.rem.toNat

/-- R222, R285: a pattern step load that starts a tone makes the tone's first sample part of the same TICK: in a state of the invariant with
a tone step of non-zero duration and level due, no burst and no click, the response is minus or plus LEVEL * 128 by the phase
that BeepStart leaves. -/
def Obligations.LoadedToneSoundsInItsOwnTick : Prop :=
  ∀ (s : State) (st : PatternStep), s.Inv → s.burst.active = false → (∀ v ∈ s.voices, v.active = false) →
    s.pattern.active = true → s.pattern.srem = 0 →
    (patternSteps s.config s.pattern.tid)[s.pattern.idx.toNat]? = some st →
    st.isTone = true → st.durationMs ≠ 0 → st.level ≠ 0 →
    ∃ t : State, exec .tick s = .next t ∧
      t.resp.toInt = (if s.config.beepPhaseReset = false ∧ 2 ^ 31 ≤ s.osc.phase.toNat then (st.level.toNat : Int) * 128
                      else -((st.level.toNat : Int) * 128)) ∧
      t.osc.level = st.level ∧
      t.osc.srem.toNat + 1 = (st.durationMs.toNat * s.config.sampleRate + 999) / 1000 ∧
      t.pattern.idx.toNat = s.pattern.idx.toNat + 1

/-! ### Control (46_control.md) -/

/-- R240: NOP completes in every state and changes nothing but the response, which is 0. -/
def Obligations.NopOnlyResponds : Prop := ∀ s : State, exec .nop s = .next { s with resp := 0 }

/-- R48, R280 (and R241): INIT completes in every state, sets every field to its reset value, rebuilds ATTACK_ENV and responds 0; STATUS reads
0 afterwards; and power-on reset has the same effect on every part of the engine's state. -/
def Obligations.InitResetsEveryField : Prop :=
  ∀ s : State, ∃ t : State, exec .init s = .next t ∧
    t.lfsr = s.config.lfsrSeed ∧
    t.voices = List.replicate s.config.maxVoices { active := false, pos := 0, env := 0, ph := 0 } ∧
    t.burst = { active := false, rem := 0, delay := 0 } ∧
    t.osc = { phase := 0, step := 0, srem := 0, level := 0 } ∧
    t.pattern = { tvalid := false, tid := 0, idx := 0, srem := 0, active := false } ∧
    (s.config.volumeReset ≤ 100 → t.volume.toNat = s.config.volumeReset) ∧
    t.ill = false ∧ t.attackEnv = attackEnvTable s.config ∧ t.status = 0 ∧ t.resp = 0 ∧
    t.config = s.config ∧ SameExcept [.pending, .resp] t s.powerOn

/-- R242: SET_VOLUME completes for every operand, stores min(IMM8, 100), responds 0 and changes nothing else. -/
def Obligations.SetVolumeClamps : Prop :=
  ∀ (s : State) (imm : U8), ∃ v : BitVec 7, exec (.setVolume imm) s = .next { s with volume := v, resp := 0 } ∧
    v.toNat = min imm.toNat 100

/-- R243: GET_VOLUME completes in every state, responds VOLUME zero-extended and changes nothing else. -/
def Obligations.GetVolumeResponds : Prop :=
  ∀ s : State, ∃ r : U16, exec .getVolume s = .next { s with resp := r } ∧ r.toNat = s.volume.toNat

/-- R244, R40: GET_STATUS completes in every state, responds the status word bit by bit, reserved bits 0, and changes nothing else (it does
not clear ILL). -/
def Obligations.GetStatusRespondsTheFlags : Prop :=
  ∀ s : State, ∃ r : U16, exec .getStatus s = .next { s with resp := r } ∧
    r.getLsbD 0 = s.ill ∧ r.getLsbD 1 = s.burst.active ∧ r.getLsbD 2 = s.pattern.active ∧
    (r.getLsbD 3 = true ↔ s.osc.srem ≠ 0) ∧ (r.getLsbD 4 = true ↔ ∃ v ∈ s.voices, v.active = true) ∧
    (∀ k : Nat, 5 ≤ k → r.getLsbD k = false)

/-- R89, R245: each reserved opcode completes, whatever its other 44 bits are: STATUS.ILL is 1, the response is 0, and nothing else
changes. -/
def Obligations.ReservedOpcodesRaiseIllegal : Prop :=
  ∀ (s : State) (low : BitVec 44),
    exec (.reservedD low) s = .next { s with ill := true, resp := 0 } ∧
    exec (.reservedE low) s = .next { s with ill := true, resp := 0 } ∧
    exec (.reservedF low) s = .next { s with ill := true, resp := 0 }

/-- R40, R261: ILL is sticky: over a step that takes a word, ILL is set afterwards exactly when the word is illegal, or it was set before and
the word is not INIT. -/
def Obligations.IllegalFlagIsSticky : Prop :=
  ∀ (s t : State) (w : Word48) (rest : List Word48), s.pending = w :: rest → step s = .next t →
    (t.ill = true ↔ ((¬ ∃ i : Instr, decode w = .ok i ∧ i.wf = true) ∨ (s.ill = true ∧ decode w ≠ .ok .init)))

/-! ### The machine as a whole -/

/-- R13, R88: when the next pending word decodes to an instruction, the step is that instruction's meaning on the state with the word
taken from the channel. That the channel is a list of pending words is the model's choice (log 4). -/
def Obligations.StepRunsTheDecodedInstr : Prop :=
  ∀ (s : State) (w : Word48) (rest : List Word48) (i : Instr), s.config.accepted = true → s.pending = w :: rest →
    decode w = .ok i → step s = exec i { s with pending := rest }

/-- R269, R281: with no word pending the engine holds all state. That waiting is a step is the model's choice (log 5). -/
def Obligations.IdleStepHoldsAllState : Prop :=
  ∀ s : State, s.config.accepted = true → s.pending = [] → step s = .next s

/-- R7, R201: a configuration that breaks a constraint of R7, or a shape or a Double duration that R201 fixes, is refused. R7 says that a
model should refuse it; that the step does, in every state and whatever is pending, is the model's choice (log 3), and so is
letting an empty list through (R205; log 13). -/
def Obligations.ConfigurationOutsideTheSpecIsRefused : Prop :=
  ∀ s : State, ¬ ((s.config.lfsrSeed ≠ 0 ∧ s.config.lfsrReseed ≠ 0 ∧
      s.config.minFreqHz.toNat ≤ s.config.maxFreqHz.toNat ∧ s.config.maxFreqHz.toNat < s.config.sampleRate ∧
      1 ≤ s.config.sampleRate ∧ s.config.sampleRate ≤ 65535 ∧
      s.config.burstDelayMin.toNat ≤ s.config.burstDelayMax.toNat ∧
      1 ≤ s.config.attackSamples ∧ s.config.attackSamples ≤ 65535 ∧
      1 ≤ s.config.tailMaxSamples ∧ s.config.tailMaxSamples ≤ 65535 ∧
      (∀ tid : BitVec 2, (patternSteps s.config tid).length ≤ 255) ∧
      1 ≤ s.config.maxVoices ∧ s.config.maxVoices ≤ 4) ∧
    (∀ tid : BitVec 2, tid ≠ 1 → patternSteps s.config tid ≠ [] →
      ∃ st : PatternStep, patternSteps s.config tid = [st] ∧ st.isTone = true) ∧
    (patternSteps s.config 1 ≠ [] → ∃ t1 gap t2 : PatternStep, patternSteps s.config 1 = [t1, gap, t2] ∧
      t1.isTone = true ∧ gap.isTone = false ∧ t2.isTone = true ∧
      t1.durationMs.toNat = 150 ∧ gap.durationMs.toNat = 150 ∧ t2.durationMs.toNat = 150)) →
    step s = .refused .configOutsideSpec

/-- R13, R70: the pending words are executed in their order, each reading the state its predecessor left: as many steps as there are words
give the same state and the same responses as the instructions' meanings one after another. The list is the model's choice (log 4). -/
def Obligations.PendingWordsRunInOrder : Prop :=
  ∀ (is : List Instr) (s : State) (rest : List Word48), s.config.accepted = true → s.pending = is.map encode ++ rest →
    runSteps is.length s = runInstrs is { s with pending := rest }

/-- R71: "Control words accepted while a TICK is pending are placed before that TICK", and "Within one producer, order is kept". Where
in its list the model puts a word is its choice (log 6). -/
def Obligations.ControlWordsGoBeforePendingTicks : Prop :=
  ∀ (s : State) (w : Word48) (controls : List Word48) (n : Nat), (∀ x ∈ controls, x ≠ 0x200000000000#48) →
    s.pending = controls ++ List.replicate n 0x200000000000#48 →
    (s.acceptControl w).pending = controls ++ [w] ++ List.replicate n 0x200000000000#48 ∧
    s.acceptTick.pending = controls ++ List.replicate (n + 1) 0x200000000000#48 ∧
    SameExcept [.pending] s (s.acceptControl w) ∧ SameExcept [.pending] s s.acceptTick

/-- R282: the parameters are build-time constants with no command to change them; and no step adds or drops a pending word but the one it
takes. The clause on the pending words is the model's choice: the channel is a list (log 4), and INIT leaves it alone (log 11). -/
def Obligations.StepsKeepConfigurationAndOrder : Prop :=
  ∀ s t : State, step s = .next t → t.config = s.config ∧ t.pending = s.pending.tail

/-- R21, R23-R41, R46, R114: the complete list of writers: a field of the state differs after a command only if the command is one of those
that the spec names as its writers. -/
def Obligations.OnlyNamedCommandsWriteEachField : Prop :=
  ∀ (i : Instr) (s t : State), exec i s = .next t →
    (t.lfsr ≠ s.lfsr → i = .tick ∨ i = .init ∨ i = .lfsrNext ∨ (∃ a b, i = .lfsrRanged a b) ∨
      ∃ a b, i = .triggerBurst a b ∧ ¬ (a = 0 ∧ b = 0)) ∧
    (t.voices ≠ s.voices → i = .tick ∨ i = .init ∨ i = .triggerClick) ∧
    (t.burst ≠ s.burst → i = .tick ∨ i = .init ∨ ∃ a b, i = .triggerBurst a b ∧ ¬ (a = 0 ∧ b = 0)) ∧
    (t.osc ≠ s.osc → i = .tick ∨ i = .init ∨ i = .stopAll ∨ ∃ a b c, i = .beepStart a b c) ∧
    (t.pattern ≠ s.pattern → i = .tick ∨ i = .init ∨ i = .stopAll ∨ ∃ a, i = .patternStart a) ∧
    (t.volume ≠ s.volume → i = .init ∨ ∃ a, i = .setVolume a) ∧
    (t.attackEnv ≠ s.attackEnv → i = .init) ∧
    (t.ill ≠ s.ill → i = .init ∨ i.wf = false)

/-- R68: NOP, GET_VOLUME, GET_STATUS, TRIGGER_CLICK, STOP_ALL, PATTERN_START, BEEP_START, SET_VOLUME and INIT applied twice in a row leave
the same state as applied once. -/
def Obligations.IdempotentCommandsRepeat : Prop :=
  ∀ (i : Instr) (s t : State),
    (i = .nop ∨ i = .getVolume ∨ i = .getStatus ∨ i = .triggerClick ∨ i = .stopAll ∨ (∃ a, i = .patternStart a) ∨
      (∃ a b c, i = .beepStart a b c) ∨ (∃ a, i = .setVolume a) ∨ i = .init) →
    exec i s = .next t → exec i t = .next t

/-- R246: "No rule of the engine reads VOLUME": two states that differ only in VOLUME go through any command but GET_VOLUME alike, response
included, and still differ at most in VOLUME. -/
def Obligations.VolumeIsAdvisory : Prop :=
  ∀ (i : Instr) (s t : State) (v : BitVec 7), i ≠ .getVolume → exec i s = .next t →
    ∃ u : State, exec i { s with volume := v } = .next u ∧ SameExcept [.volume] t u

/-- R48, R49: the invariant holds at reset, in the reference configuration. -/
def Obligations.ResetMeetsTheInvariant : Prop := State.reset.Inv

/-- R49: every step keeps the invariant, from every state that meets it. -/
def Obligations.StepKeepsTheInvariant : Prop := ∀ s t : State, s.Inv → step s = .next t → t.Inv

/-- R260, R65, R71: from every state of the invariant, in a configuration inside the spec, the machine never stops, whatever the producers deliver, in whatever order they and
the engine act, and it stays in the invariant. The events are the model's form of the agents (log 6). -/
def Obligations.NoInterleavingStopsTheEngine : Prop :=
  ∀ (es : List Event) (s : State), s.Inv → s.config.accepted = true → ∃ t : State, applyEvents es s = .next t ∧ t.Inv
end

