-- ==== Sys2Proof/Laws/State.lean ====
section
/-! SUPPORT. One lemma per field per named update of the state (true by `rfl`), so that no later proof unfolds a record update; and the
frame relation's basic lemmas. -/

namespace Sys2Proof.Machine

/-! ### `State.withLfsr` -/

@[simp] theorem State.withLfsr_config (s : State) (v : U16) : (s.withLfsr v).config = s.config := rfl
@[simp] theorem State.withLfsr_lfsr (s : State) (v : U16) : (s.withLfsr v).lfsr = v := rfl
@[simp] theorem State.withLfsr_voices (s : State) (v : U16) : (s.withLfsr v).voices = s.voices := rfl
@[simp] theorem State.withLfsr_burst (s : State) (v : U16) : (s.withLfsr v).burst = s.burst := rfl
@[simp] theorem State.withLfsr_osc (s : State) (v : U16) : (s.withLfsr v).osc = s.osc := rfl
@[simp] theorem State.withLfsr_pattern (s : State) (v : U16) : (s.withLfsr v).pattern = s.pattern := rfl
@[simp] theorem State.withLfsr_volume (s : State) (v : U16) : (s.withLfsr v).volume = s.volume := rfl
@[simp] theorem State.withLfsr_ill (s : State) (v : U16) : (s.withLfsr v).ill = s.ill := rfl
@[simp] theorem State.withLfsr_attackEnv (s : State) (v : U16) : (s.withLfsr v).attackEnv = s.attackEnv := rfl
@[simp] theorem State.withLfsr_pending (s : State) (v : U16) : (s.withLfsr v).pending = s.pending := rfl
@[simp] theorem State.withLfsr_resp (s : State) (v : U16) : (s.withLfsr v).resp = s.resp := rfl

/-! ### `State.withVoices` -/

@[simp] theorem State.withVoices_config (s : State) (v : List Voice) : (s.withVoices v).config = s.config := rfl
@[simp] theorem State.withVoices_lfsr (s : State) (v : List Voice) : (s.withVoices v).lfsr = s.lfsr := rfl
@[simp] theorem State.withVoices_voices (s : State) (v : List Voice) : (s.withVoices v).voices = v := rfl
@[simp] theorem State.withVoices_burst (s : State) (v : List Voice) : (s.withVoices v).burst = s.burst := rfl
@[simp] theorem State.withVoices_osc (s : State) (v : List Voice) : (s.withVoices v).osc = s.osc := rfl
@[simp] theorem State.withVoices_pattern (s : State) (v : List Voice) : (s.withVoices v).pattern = s.pattern := rfl
@[simp] theorem State.withVoices_volume (s : State) (v : List Voice) : (s.withVoices v).volume = s.volume := rfl
@[simp] theorem State.withVoices_ill (s : State) (v : List Voice) : (s.withVoices v).ill = s.ill := rfl
@[simp] theorem State.withVoices_attackEnv (s : State) (v : List Voice) : (s.withVoices v).attackEnv = s.attackEnv := rfl
@[simp] theorem State.withVoices_pending (s : State) (v : List Voice) : (s.withVoices v).pending = s.pending := rfl
@[simp] theorem State.withVoices_resp (s : State) (v : List Voice) : (s.withVoices v).resp = s.resp := rfl

/-! ### `State.withBurst` -/

@[simp] theorem State.withBurst_config (s : State) (v : Burst) : (s.withBurst v).config = s.config := rfl
@[simp] theorem State.withBurst_lfsr (s : State) (v : Burst) : (s.withBurst v).lfsr = s.lfsr := rfl
@[simp] theorem State.withBurst_voices (s : State) (v : Burst) : (s.withBurst v).voices = s.voices := rfl
@[simp] theorem State.withBurst_burst (s : State) (v : Burst) : (s.withBurst v).burst = v := rfl
@[simp] theorem State.withBurst_osc (s : State) (v : Burst) : (s.withBurst v).osc = s.osc := rfl
@[simp] theorem State.withBurst_pattern (s : State) (v : Burst) : (s.withBurst v).pattern = s.pattern := rfl
@[simp] theorem State.withBurst_volume (s : State) (v : Burst) : (s.withBurst v).volume = s.volume := rfl
@[simp] theorem State.withBurst_ill (s : State) (v : Burst) : (s.withBurst v).ill = s.ill := rfl
@[simp] theorem State.withBurst_attackEnv (s : State) (v : Burst) : (s.withBurst v).attackEnv = s.attackEnv := rfl
@[simp] theorem State.withBurst_pending (s : State) (v : Burst) : (s.withBurst v).pending = s.pending := rfl
@[simp] theorem State.withBurst_resp (s : State) (v : Burst) : (s.withBurst v).resp = s.resp := rfl

/-! ### `State.withOsc` -/

@[simp] theorem State.withOsc_config (s : State) (v : Osc) : (s.withOsc v).config = s.config := rfl
@[simp] theorem State.withOsc_lfsr (s : State) (v : Osc) : (s.withOsc v).lfsr = s.lfsr := rfl
@[simp] theorem State.withOsc_voices (s : State) (v : Osc) : (s.withOsc v).voices = s.voices := rfl
@[simp] theorem State.withOsc_burst (s : State) (v : Osc) : (s.withOsc v).burst = s.burst := rfl
@[simp] theorem State.withOsc_osc (s : State) (v : Osc) : (s.withOsc v).osc = v := rfl
@[simp] theorem State.withOsc_pattern (s : State) (v : Osc) : (s.withOsc v).pattern = s.pattern := rfl
@[simp] theorem State.withOsc_volume (s : State) (v : Osc) : (s.withOsc v).volume = s.volume := rfl
@[simp] theorem State.withOsc_ill (s : State) (v : Osc) : (s.withOsc v).ill = s.ill := rfl
@[simp] theorem State.withOsc_attackEnv (s : State) (v : Osc) : (s.withOsc v).attackEnv = s.attackEnv := rfl
@[simp] theorem State.withOsc_pending (s : State) (v : Osc) : (s.withOsc v).pending = s.pending := rfl
@[simp] theorem State.withOsc_resp (s : State) (v : Osc) : (s.withOsc v).resp = s.resp := rfl

/-! ### `State.withPattern` -/

@[simp] theorem State.withPattern_config (s : State) (v : Pattern) : (s.withPattern v).config = s.config := rfl
@[simp] theorem State.withPattern_lfsr (s : State) (v : Pattern) : (s.withPattern v).lfsr = s.lfsr := rfl
@[simp] theorem State.withPattern_voices (s : State) (v : Pattern) : (s.withPattern v).voices = s.voices := rfl
@[simp] theorem State.withPattern_burst (s : State) (v : Pattern) : (s.withPattern v).burst = s.burst := rfl
@[simp] theorem State.withPattern_osc (s : State) (v : Pattern) : (s.withPattern v).osc = s.osc := rfl
@[simp] theorem State.withPattern_pattern (s : State) (v : Pattern) : (s.withPattern v).pattern = v := rfl
@[simp] theorem State.withPattern_volume (s : State) (v : Pattern) : (s.withPattern v).volume = s.volume := rfl
@[simp] theorem State.withPattern_ill (s : State) (v : Pattern) : (s.withPattern v).ill = s.ill := rfl
@[simp] theorem State.withPattern_attackEnv (s : State) (v : Pattern) : (s.withPattern v).attackEnv = s.attackEnv := rfl
@[simp] theorem State.withPattern_pending (s : State) (v : Pattern) : (s.withPattern v).pending = s.pending := rfl
@[simp] theorem State.withPattern_resp (s : State) (v : Pattern) : (s.withPattern v).resp = s.resp := rfl

/-! ### `State.withVolume` -/

@[simp] theorem State.withVolume_config (s : State) (v : BitVec 7) : (s.withVolume v).config = s.config := rfl
@[simp] theorem State.withVolume_lfsr (s : State) (v : BitVec 7) : (s.withVolume v).lfsr = s.lfsr := rfl
@[simp] theorem State.withVolume_voices (s : State) (v : BitVec 7) : (s.withVolume v).voices = s.voices := rfl
@[simp] theorem State.withVolume_burst (s : State) (v : BitVec 7) : (s.withVolume v).burst = s.burst := rfl
@[simp] theorem State.withVolume_osc (s : State) (v : BitVec 7) : (s.withVolume v).osc = s.osc := rfl
@[simp] theorem State.withVolume_pattern (s : State) (v : BitVec 7) : (s.withVolume v).pattern = s.pattern := rfl
@[simp] theorem State.withVolume_volume (s : State) (v : BitVec 7) : (s.withVolume v).volume = v := rfl
@[simp] theorem State.withVolume_ill (s : State) (v : BitVec 7) : (s.withVolume v).ill = s.ill := rfl
@[simp] theorem State.withVolume_attackEnv (s : State) (v : BitVec 7) : (s.withVolume v).attackEnv = s.attackEnv := rfl
@[simp] theorem State.withVolume_pending (s : State) (v : BitVec 7) : (s.withVolume v).pending = s.pending := rfl
@[simp] theorem State.withVolume_resp (s : State) (v : BitVec 7) : (s.withVolume v).resp = s.resp := rfl

/-! ### `State.withPending` -/

@[simp] theorem State.withPending_config (s : State) (v : List Word48) : (s.withPending v).config = s.config := rfl
@[simp] theorem State.withPending_lfsr (s : State) (v : List Word48) : (s.withPending v).lfsr = s.lfsr := rfl
@[simp] theorem State.withPending_voices (s : State) (v : List Word48) : (s.withPending v).voices = s.voices := rfl
@[simp] theorem State.withPending_burst (s : State) (v : List Word48) : (s.withPending v).burst = s.burst := rfl
@[simp] theorem State.withPending_osc (s : State) (v : List Word48) : (s.withPending v).osc = s.osc := rfl
@[simp] theorem State.withPending_pattern (s : State) (v : List Word48) : (s.withPending v).pattern = s.pattern := rfl
@[simp] theorem State.withPending_volume (s : State) (v : List Word48) : (s.withPending v).volume = s.volume := rfl
@[simp] theorem State.withPending_ill (s : State) (v : List Word48) : (s.withPending v).ill = s.ill := rfl
@[simp] theorem State.withPending_attackEnv (s : State) (v : List Word48) : (s.withPending v).attackEnv = s.attackEnv := rfl
@[simp] theorem State.withPending_pending (s : State) (v : List Word48) : (s.withPending v).pending = v := rfl
@[simp] theorem State.withPending_resp (s : State) (v : List Word48) : (s.withPending v).resp = s.resp := rfl

/-! ### `State.respond` -/

@[simp] theorem State.respond_config (s : State) (v : U16) : (s.respond v).config = s.config := rfl
@[simp] theorem State.respond_lfsr (s : State) (v : U16) : (s.respond v).lfsr = s.lfsr := rfl
@[simp] theorem State.respond_voices (s : State) (v : U16) : (s.respond v).voices = s.voices := rfl
@[simp] theorem State.respond_burst (s : State) (v : U16) : (s.respond v).burst = s.burst := rfl
@[simp] theorem State.respond_osc (s : State) (v : U16) : (s.respond v).osc = s.osc := rfl
@[simp] theorem State.respond_pattern (s : State) (v : U16) : (s.respond v).pattern = s.pattern := rfl
@[simp] theorem State.respond_volume (s : State) (v : U16) : (s.respond v).volume = s.volume := rfl
@[simp] theorem State.respond_ill (s : State) (v : U16) : (s.respond v).ill = s.ill := rfl
@[simp] theorem State.respond_attackEnv (s : State) (v : U16) : (s.respond v).attackEnv = s.attackEnv := rfl
@[simp] theorem State.respond_pending (s : State) (v : U16) : (s.respond v).pending = s.pending := rfl
@[simp] theorem State.respond_resp (s : State) (v : U16) : (s.respond v).resp = v := rfl

/-! ### `State.raiseIllegal` (R245) -/

@[simp] theorem State.raiseIllegal_config (s : State) : s.raiseIllegal.config = s.config := rfl
@[simp] theorem State.raiseIllegal_lfsr (s : State) : s.raiseIllegal.lfsr = s.lfsr := rfl
@[simp] theorem State.raiseIllegal_voices (s : State) : s.raiseIllegal.voices = s.voices := rfl
@[simp] theorem State.raiseIllegal_burst (s : State) : s.raiseIllegal.burst = s.burst := rfl
@[simp] theorem State.raiseIllegal_osc (s : State) : s.raiseIllegal.osc = s.osc := rfl
@[simp] theorem State.raiseIllegal_pattern (s : State) : s.raiseIllegal.pattern = s.pattern := rfl
@[simp] theorem State.raiseIllegal_volume (s : State) : s.raiseIllegal.volume = s.volume := rfl
@[simp] theorem State.raiseIllegal_ill (s : State) : s.raiseIllegal.ill = true := rfl
@[simp] theorem State.raiseIllegal_attackEnv (s : State) : s.raiseIllegal.attackEnv = s.attackEnv := rfl
@[simp] theorem State.raiseIllegal_pending (s : State) : s.raiseIllegal.pending = s.pending := rfl
@[simp] theorem State.raiseIllegal_resp (s : State) : s.raiseIllegal.resp = 0 := rfl

/-! ### `State.resetWith` and `State.resetEngine` (R48, R280) -/

@[simp] theorem State.resetWith_config (c : Config) : (State.resetWith c).config = c := rfl
@[simp] theorem State.resetWith_lfsr (c : Config) : (State.resetWith c).lfsr = c.lfsrSeed := rfl
@[simp] theorem State.resetWith_voices (c : Config) : (State.resetWith c).voices = List.replicate c.maxVoices Voice.zero := rfl
@[simp] theorem State.resetWith_burst (c : Config) : (State.resetWith c).burst = Burst.zero := rfl
@[simp] theorem State.resetWith_osc (c : Config) : (State.resetWith c).osc = Osc.zero := rfl
@[simp] theorem State.resetWith_pattern (c : Config) : (State.resetWith c).pattern = Pattern.zero := rfl
@[simp] theorem State.resetWith_volume (c : Config) : (State.resetWith c).volume = BitVec.ofNat 7 c.volumeReset := rfl
@[simp] theorem State.resetWith_ill (c : Config) : (State.resetWith c).ill = false := rfl
@[simp] theorem State.resetWith_attackEnv (c : Config) : (State.resetWith c).attackEnv = attackEnvTable c := rfl
@[simp] theorem State.resetWith_pending (c : Config) : (State.resetWith c).pending = [] := rfl
@[simp] theorem State.resetWith_resp (c : Config) : (State.resetWith c).resp = 0 := rfl

@[simp] theorem State.resetEngine_config (s : State) : s.resetEngine.config = s.config := rfl
@[simp] theorem State.resetEngine_lfsr (s : State) : s.resetEngine.lfsr = s.config.lfsrSeed := rfl
@[simp] theorem State.resetEngine_voices (s : State) : s.resetEngine.voices = List.replicate s.config.maxVoices Voice.zero := rfl
@[simp] theorem State.resetEngine_burst (s : State) : s.resetEngine.burst = Burst.zero := rfl
@[simp] theorem State.resetEngine_osc (s : State) : s.resetEngine.osc = Osc.zero := rfl
@[simp] theorem State.resetEngine_pattern (s : State) : s.resetEngine.pattern = Pattern.zero := rfl
@[simp] theorem State.resetEngine_volume (s : State) : s.resetEngine.volume = BitVec.ofNat 7 s.config.volumeReset := rfl
@[simp] theorem State.resetEngine_ill (s : State) : s.resetEngine.ill = false := rfl
@[simp] theorem State.resetEngine_attackEnv (s : State) : s.resetEngine.attackEnv = attackEnvTable s.config := rfl
@[simp] theorem State.resetEngine_pending (s : State) : s.resetEngine.pending = s.pending := rfl
@[simp] theorem State.resetEngine_resp (s : State) : s.resetEngine.resp = s.resp := rfl

/-! ### `State.clickTrigger` (R132) -/

@[simp] theorem State.clickTrigger_config (s : State) : s.clickTrigger.config = s.config := rfl
@[simp] theorem State.clickTrigger_lfsr (s : State) : s.clickTrigger.lfsr = s.lfsr := rfl
@[simp] theorem State.clickTrigger_voices (s : State) : s.clickTrigger.voices = triggeredPool s.config s.voices := rfl
@[simp] theorem State.clickTrigger_burst (s : State) : s.clickTrigger.burst = s.burst := rfl
@[simp] theorem State.clickTrigger_osc (s : State) : s.clickTrigger.osc = s.osc := rfl
@[simp] theorem State.clickTrigger_pattern (s : State) : s.clickTrigger.pattern = s.pattern := rfl
@[simp] theorem State.clickTrigger_volume (s : State) : s.clickTrigger.volume = s.volume := rfl
@[simp] theorem State.clickTrigger_ill (s : State) : s.clickTrigger.ill = s.ill := rfl
@[simp] theorem State.clickTrigger_attackEnv (s : State) : s.clickTrigger.attackEnv = s.attackEnv := rfl
@[simp] theorem State.clickTrigger_pending (s : State) : s.clickTrigger.pending = s.pending := rfl
@[simp] theorem State.clickTrigger_resp (s : State) : s.clickTrigger.resp = s.resp := rfl

/-! ### Outcomes -/

@[simp] theorem nextState?_next (s : State) : nextState? (.next s) = some s := rfl

@[simp] theorem nextState?_fault (f : Fault) : nextState? (.fault f) = none := rfl

@[simp] theorem nextState?_refused (r : Refusal) : nextState? (.refused r) = none := rfl

/-- Two next states are one. -/
theorem next_inj {s t : State} (h : (Host.Outcome.next s : Result) = .next t) : s = t := by
  cases h
  rfl

theorem runInstrs_cons_next {i : Instr} {is : List Instr} {s t u : State} {rs : List U16} (h : exec i s = .next t)
    (h2 : runInstrs is t = some (u, rs)) : runInstrs (i :: is) s = some (u, t.resp :: rs) := by
  simp [runInstrs, h, h2]

/-! ### Frames -/

theorem SameExcept.refl (fs : List Field) (s : State) : SameExcept fs s s := by
  intro f _
  cases f <;> rfl

/-- A frame is exactly its eleven field equations, each under its guard. -/
theorem sameExcept_iff (fs : List Field) (s t : State) :
    SameExcept fs s t ↔
      (Field.config ∉ fs → t.config = s.config) ∧ (Field.lfsr ∉ fs → t.lfsr = s.lfsr) ∧
      (Field.voices ∉ fs → t.voices = s.voices) ∧ (Field.burst ∉ fs → t.burst = s.burst) ∧
      (Field.osc ∉ fs → t.osc = s.osc) ∧ (Field.pattern ∉ fs → t.pattern = s.pattern) ∧
      (Field.volume ∉ fs → t.volume = s.volume) ∧ (Field.ill ∉ fs → t.ill = s.ill) ∧
      (Field.attackEnv ∉ fs → t.attackEnv = s.attackEnv) ∧ (Field.pending ∉ fs → t.pending = s.pending) ∧
      (Field.resp ∉ fs → t.resp = s.resp) := by
  constructor
  · intro h
    exact ⟨h .config, h .lfsr, h .voices, h .burst, h .osc, h .pattern, h .volume, h .ill, h .attackEnv, h .pending,
      h .resp⟩
  · rintro ⟨h1, h2, h3, h4, h5, h6, h7, h8, h9, h10, h11⟩ f
    cases f <;> assumption

end Sys2Proof.Machine
end

