-- ==== Sys2Proof/Laws/Arith.lean ====
section
/-! SUPPORT. What the arithmetic primitives of Machine/Arith.lean do (00_scope.md R9, R10), said once. -/

namespace Sys2Proof.Machine

theorem sat16_ge (v : Int) : -32768 ≤ sat16 v := by unfold sat16; omega

theorem sat16_le (v : Int) : sat16 v ≤ 32767 := by unfold sat16; omega

theorem sat16_of_inRange {v : Int} (h1 : -32768 ≤ v) (h2 : v ≤ 32767) : sat16 v = v := by unfold sat16; omega

/-- The bits written for a value in the i16 range read back as that value. -/
theorem toInt_toI16 {v : Int} (h1 : -32768 ≤ v) (h2 : v ≤ 32767) : (toI16 v).toInt = v := by
  unfold toI16
  rw [BitVec.toInt_ofInt]
  apply Int.bmod_eq_of_le <;> norm_num <;> omega

theorem toInt_toI16_sat16 (v : Int) : (toI16 (sat16 v)).toInt = max (-32768) (min 32767 v) :=
  toInt_toI16 (sat16_ge v) (sat16_le v)

/-- `sext_16` is the two's complement reading. -/
theorem sext16_eq_toInt (v : U16) : sext16 v = v.toInt := by
  unfold sext16
  rw [BitVec.toInt_eq_msb_cond, BitVec.msb_eq_getLsbD_last]
  norm_num

theorem toInt16_ge (v : U16) : -32768 ≤ v.toInt := by
  have h := BitVec.le_toInt v
  norm_num at h
  exact h

theorem toInt16_le (v : U16) : v.toInt ≤ 32767 := by
  have h := BitVec.toInt_lt (x := v)
  norm_num at h
  omega

theorem sext16_ge (v : U16) : -32768 ≤ sext16 v := by
  rw [sext16_eq_toInt]
  exact toInt16_ge v

theorem sext16_le (v : U16) : sext16 v ≤ 32767 := by
  rw [sext16_eq_toInt]
  exact toInt16_le v

theorem scaleQ16_eq (v : Int) (f : U16) : scaleQ16 v f = v * (f.toNat : Int) / 65536 := by
  unfold scaleQ16 asr
  norm_num

@[simp] theorem scaleQ16_zero (f : U16) : scaleQ16 0 f = 0 := by simp [scaleQ16_eq]

/-- Scaling by a Q0.16 factor (a gain below 1) keeps a value in the i16 range (41_click_voice.md R135). -/
theorem scaleQ16_inRange {v : Int} (f : U16) (h1 : -32768 ≤ v) (h2 : v ≤ 32767) :
    -32768 ≤ scaleQ16 v f ∧ scaleQ16 v f ≤ 32767 := by
  rw [scaleQ16_eq]
  have hf : (f.toNat : Int) < 65536 := by exact_mod_cast f.isLt
  have h0 : (0 : Int) ≤ (f.toNat : Int) := Int.natCast_nonneg _
  constructor
  · apply Int.le_ediv_of_mul_le (by norm_num)
    nlinarith
  · apply Int.le_of_lt_add_one
    apply Int.ediv_lt_of_lt_mul (by norm_num)
    nlinarith

/-- A Q0.16 product fits in 16 bits, so nothing is lost when it is stored. -/
theorem decayQ16_toNat (e d : U16) : (decayQ16 e d).toNat = e.toNat * d.toNat / 65536 := by
  have h : e.toNat * d.toNat / 65536 < 65536 := by
    have he : e.toNat < 65536 := e.isLt
    have hd : d.toNat < 65536 := d.isLt
    apply Nat.div_lt_of_lt_mul
    exact Nat.mul_lt_mul'' he hd
  unfold decayQ16
  norm_num
  exact h

theorem decayQ16_le (e d : U16) : (decayQ16 e d).toNat ≤ e.toNat := by
  rw [decayQ16_toNat]
  have hd : d.toNat < 65536 := d.isLt
  apply Nat.div_le_of_le_mul
  nlinarith [e.toNat.zero_le]

/-- R140: an envelope above 0 strictly decreases. -/
theorem decayQ16_lt {e : U16} (d : U16) (h : e ≠ 0) : (decayQ16 e d).toNat < e.toNat := by
  rw [decayQ16_toNat]
  have hd : d.toNat < 65536 := d.isLt
  have he : 0 < e.toNat := by
    rcases Nat.eq_zero_or_pos e.toNat with h0 | h0
    · exact absurd (BitVec.eq_of_toNat_eq (by simpa using h0)) h
    · exact h0
  apply Nat.div_lt_of_lt_mul
  nlinarith

/-- `ceil(d * rate / 1000)` is 0 only for duration 0 (43_beep_oscillator.md R180). -/
theorem sampleCount_eq (c : Config) (dur : U16) : sampleCount c dur = (dur.toNat * c.sampleRate + 999) / 1000 := rfl

theorem sampleCount_lt {c : Config} (dur : U16) (h : c.sampleRate ≤ 65535) : sampleCount c dur < 2 ^ 32 := by
  rw [sampleCount_eq]
  have hd : dur.toNat < 65536 := dur.isLt
  have : dur.toNat * c.sampleRate ≤ 65535 * 65535 := Nat.mul_le_mul (by omega) h
  omega

theorem sampleCount_pos {c : Config} {dur : U16} (h : 1 ≤ c.sampleRate) (hd : dur ≠ 0) : 1 ≤ sampleCount c dur := by
  rw [sampleCount_eq]
  have he : 0 < dur.toNat := by
    rcases Nat.eq_zero_or_pos dur.toNat with h0 | h0
    · exact absurd (BitVec.eq_of_toNat_eq (by simpa using h0)) hd
    · exact h0
  have : 1 ≤ dur.toNat * c.sampleRate := Nat.mul_pos he h
  omega

@[simp] theorem sampleCount_zero (c : Config) : sampleCount c 0 = 0 := by simp [sampleCount_eq]

end Sys2Proof.Machine
end

