-- ==== Sys2Proof/Laws/Noise.lean ====
section
/-! SUPPORT. What a draw and a ranged draw do (40_noise_generator.md R110-R113), said once. -/

namespace Sys2Proof.Machine

/-- R110: bits 0-14 of the FIB step are bits 1-15 of the register. -/
theorem lfsrStepFib_getLsbD (s : U16) (k : Nat) (h : k < 15) : (lfsrStepFib s).getLsbD k = s.getLsbD (k + 1) := by
  unfold lfsrStepFib
  rw [BitVec.getLsbD_append]
  simp [h, Nat.add_comm]

/-- R110: bit 15 of the FIB step is the feedback bit. -/
theorem lfsrStepFib_top (s : U16) :
    (lfsrStepFib s).getLsbD 15 = (s.getLsbD 0 ^^ s.getLsbD 2 ^^ s.getLsbD 3 ^^ s.getLsbD 5) := by
  unfold lfsrStepFib
  rw [BitVec.getLsbD_append]
  simp

/-- R111: a draw is the stepped register, or LFSR_RESEED when that is 0. -/
theorem nextDraw_cases (c : Config) (r : U16) :
    (lfsrStep c.lfsrForm r ≠ 0 ∧ nextDraw c r = lfsrStep c.lfsrForm r) ∨
      (lfsrStep c.lfsrForm r = 0 ∧ nextDraw c r = c.lfsrReseed) := by
  unfold nextDraw
  by_cases h : lfsrStep c.lfsrForm r = 0
  · exact .inr ⟨h, if_pos h⟩
  · exact .inl ⟨h, if_neg h⟩

/-- R111: with a non-zero LFSR_RESEED no draw is 0, whatever the register held. -/
theorem nextDraw_ne_zero {c : Config} (h : c.lfsrReseed ≠ 0) (r : U16) : nextDraw c r ≠ 0 := by
  rcases nextDraw_cases c r with ⟨h1, h2⟩ | ⟨_, h2⟩
  · rw [h2]; exact h1
  · rw [h2]; exact h

/-- R113: where a draw falls in the range: the lower operand plus the draw modulo the exact span. -/
theorem rangeMap_toNat (lo hi r : U16) :
    (rangeMap lo hi r).toNat =
      min lo.toNat hi.toNat + r.toNat % (max lo.toNat hi.toNat - min lo.toNat hi.toNat + 1) := by
  have hl : lo.toNat < 65536 := lo.isLt
  have hh : hi.toNat < 65536 := hi.isLt
  have key : ∀ a b : Nat, a ≤ b → b < 65536 → a + r.toNat % (b - a + 1) < 65536 := by
    intro a b hab hb
    have := Nat.mod_lt r.toNat (Nat.succ_pos (b - a))
    simp only [Nat.succ_eq_add_one] at this
    omega
  unfold rangeMap
  split
  · have := key hi.toNat lo.toNat (by omega) hl
    rw [Nat.min_eq_right (by omega), Nat.max_eq_left (by omega), BitVec.toNat_ofNat]
    exact Nat.mod_eq_of_lt this
  · have := key lo.toNat hi.toNat (by omega) hh
    rw [Nat.min_eq_left (by omega), Nat.max_eq_right (by omega), BitVec.toNat_ofNat]
    exact Nat.mod_eq_of_lt this

/-- R113: a ranged draw lies in the inclusive range of its operands, in either order. -/
theorem rangeMap_bounds (lo hi r : U16) :
    min lo.toNat hi.toNat ≤ (rangeMap lo hi r).toNat ∧ (rangeMap lo hi r).toNat ≤ max lo.toNat hi.toNat := by
  rw [rangeMap_toNat]
  have := Nat.mod_lt r.toNat (Nat.succ_pos (max lo.toNat hi.toNat - min lo.toNat hi.toNat))
  simp only [Nat.succ_eq_add_one] at this
  omega

end Sys2Proof.Machine
end

