-- ==== Sys2Proof/Laws/Voices.lean ====
section
/-! SUPPORT. What one call of a slot's advance and one advance of the pool can do (41_click_voice.md R134-R143), said once: later proofs
cite these cases instead of unfolding the functions. -/

namespace Sys2Proof.Machine

theorem readTable_some {t : TableName} {xs : List U16} {i : Nat} {v : U16} (h : xs[i]? = some v) :
    readTable t xs i = .ok v := by
  unfold readTable
  rw [h]

/-- R65: an index inside the table reads an entry. -/
theorem readTable_lt {t : TableName} {xs : List U16} {i : Nat} (h : i < xs.length) : readTable t xs i = .ok xs[i] :=
  readTable_some (List.getElem?_eq_getElem h)

theorem readTable_ok {t : TableName} {xs : List U16} {i : Nat} {v : U16} (h : readTable t xs i = .ok v) :
    xs[i]? = some v := by
  unfold readTable at h
  split at h
  · rename_i w hw
    cases h
    exact hw
  · cases h

/-- R135: the attack sample, from the two entries at the position. -/
theorem attackSample_some {c : Config} {tbl : List U16} {p : Nat} {wave env : U16} (hw : c.attackWave[p]? = some wave)
    (he : tbl[p]? = some env) : attackSample c tbl p = .ok (scaleQ16 (sext16 wave) env) := by
  unfold attackSample
  rw [readTable_some hw, readTable_some he]

theorem attackSample_ok {c : Config} {tbl : List U16} {p : Nat} {out : Int} (h : attackSample c tbl p = .ok out) :
    ∃ wave env, c.attackWave[p]? = some wave ∧ tbl[p]? = some env ∧ out = scaleQ16 (sext16 wave) env := by
  unfold attackSample at h
  cases hw : readTable .attackWave c.attackWave p with
  | error f => simp [hw] at h
  | ok wave =>
    cases he : readTable .attackEnv tbl p with
    | error f => simp [hw, he] at h
    | ok env =>
      simp only [hw, he, Except.ok.injEq] at h
      exact ⟨wave, env, readTable_ok hw, readTable_ok he, h.symm⟩

/-- R136-R140: a tail sample, from the sine entry at the advanced phase's top byte. -/
theorem tailSample_some {c : Config} {lfsr wave : U16} {v : Voice}
    (h : c.sineTable[((tailPhase c (nextDraw c lfsr) v.ph).extractLsb' 8 8).toNat]? = some wave) :
    tailSample c lfsr v =
      .ok { out := sat16 (scaleQ16 (sext16 wave) v.env + tailNoise c (nextDraw c (nextDraw c lfsr)) v.env)
            voice := { v with ph := tailPhase c (nextDraw c lfsr) v.ph, env := decayQ16 v.env c.tailDecay }
            lfsr := nextDraw c (nextDraw c lfsr) } := by
  unfold tailSample
  simp only [readTable_some h]

theorem tailSample_ok {c : Config} {lfsr : U16} {v : Voice} {r : VoiceStep} (h : tailSample c lfsr v = .ok r) :
    ∃ wave, r =
      { out := sat16 (scaleQ16 (sext16 wave) v.env + tailNoise c (nextDraw c (nextDraw c lfsr)) v.env)
        voice := { v with ph := tailPhase c (nextDraw c lfsr) v.ph, env := decayQ16 v.env c.tailDecay }
        lfsr := nextDraw c (nextDraw c lfsr) } := by
  unfold tailSample at h
  simp only at h
  split at h
  · cases h
  · rename_i wave _
    exact ⟨wave, by cases h; rfl⟩

/-- R134: everything one call of `VoiceAdvance` can answer: inactive; deactivated (by POS, or by ENV in the tail); an attack sample; a
tail sample. -/
theorem voiceAdvance_cases {c : Config} {tbl : List U16} {lfsr : U16} {v : Voice} {r : VoiceStep}
    (h : voiceAdvance c tbl lfsr v = .ok r) :
    (v.active = false ∧ r = { out := 0, voice := v, lfsr := lfsr }) ∨
    (v.active = true ∧ (c.tailMaxSamples ≤ v.pos.toNat ∨ c.attackSamples ≤ v.pos.toNat ∧ v.env = 0) ∧
      r = deactivated lfsr v) ∨
    (v.active = true ∧ v.pos.toNat < c.tailMaxSamples ∧ v.pos.toNat < c.attackSamples ∧
      ∃ wave env, c.attackWave[v.pos.toNat]? = some wave ∧ tbl[v.pos.toNat]? = some env ∧
        r = { out := scaleQ16 (sext16 wave) env, voice := v.nextPos, lfsr := lfsr }) ∨
    (v.active = true ∧ v.pos.toNat < c.tailMaxSamples ∧ c.attackSamples ≤ v.pos.toNat ∧ v.env ≠ 0 ∧
      ∃ wave, r =
        { out := sat16 (scaleQ16 (sext16 wave) v.env + tailNoise c (nextDraw c (nextDraw c lfsr)) v.env)
          voice := { v with pos := v.pos + 1, ph := tailPhase c (nextDraw c lfsr) v.ph, env := decayQ16 v.env c.tailDecay }
          lfsr := nextDraw c (nextDraw c lfsr) }) := by
  unfold voiceAdvance at h
  split at h
  · rename_i ha
    exact .inl ⟨ha, by cases h; rfl⟩
  rename_i ha
  have ha : v.active = true := by simpa using ha
  split at h
  · rename_i hp
    exact .inr (.inl ⟨ha, .inl hp, by cases h; rfl⟩)
  rename_i hp
  have hp : v.pos.toNat < c.tailMaxSamples := by omega
  split at h
  · rename_i hk
    split at h
    · cases h
    · rename_i out ho
      obtain ⟨wave, env, hw, he, rfl⟩ := attackSample_ok ho
      exact .inr (.inr (.inl ⟨ha, hp, hk, wave, env, hw, he, by cases h; rfl⟩))
  rename_i hk
  have hk : c.attackSamples ≤ v.pos.toNat := by omega
  split at h
  · rename_i he
    exact .inr (.inl ⟨ha, .inr ⟨hk, he⟩, by cases h; rfl⟩)
  rename_i he
  split at h
  · cases h
  · rename_i q hq
    obtain ⟨wave, rfl⟩ := tailSample_ok hq
    exact .inr (.inr (.inr ⟨ha, hp, hk, he, wave, by cases h; rfl⟩))

@[simp] theorem voiceAdvance_inactive (c : Config) (tbl : List U16) (lfsr : U16) {v : Voice} (h : v.active = false) :
    voiceAdvance c tbl lfsr v = .ok { out := 0, voice := v, lfsr := lfsr } := by
  unfold voiceAdvance
  simp [h]

/-- R65: with tables of their lengths, a call of `VoiceAdvance` never stops. -/
theorem voiceAdvance_answers {c : Config} {tbl : List U16} (hw : c.attackWave.length = c.attackSamples)
    (ht : tbl.length = c.attackSamples) (hs : c.sineTable.length = 256) (lfsr : U16) (v : Voice) :
    ∃ r, voiceAdvance c tbl lfsr v = .ok r := by
  unfold voiceAdvance
  split
  · exact ⟨_, rfl⟩
  split
  · exact ⟨_, rfl⟩
  split
  · rename_i hk
    rw [attackSample_some (List.getElem?_eq_getElem (by omega : v.pos.toNat < c.attackWave.length))
      (List.getElem?_eq_getElem (by omega : v.pos.toNat < tbl.length))]
    exact ⟨_, rfl⟩
  split
  · exact ⟨_, rfl⟩
  · have hlt : ((tailPhase c (nextDraw c lfsr) v.ph).extractLsb' 8 8).toNat < c.sineTable.length := by
      rw [hs]
      exact BitVec.isLt _
    rw [tailSample_some (List.getElem?_eq_getElem hlt)]
    exact ⟨_, rfl⟩

/-- R143: the pool's advance is slot 0's and then the rest's, from the LFSR that slot 0 leaves. -/
theorem poolAdvance_cons_ok {c : Config} {tbl : List U16} {lfsr : U16} {v : Voice} {vs : List Voice} {r : PoolStep}
    (h : poolAdvance c tbl lfsr (v :: vs) = .ok r) :
    ∃ q p, voiceAdvance c tbl lfsr v = .ok q ∧ poolAdvance c tbl q.lfsr vs = .ok p ∧
      r = { clicks := q.out + p.clicks, voices := q.voice :: p.voices, lfsr := p.lfsr } := by
  unfold poolAdvance at h
  split at h
  · cases h
  · rename_i q hq
    split at h
    · cases h
    · rename_i p hp
      exact ⟨q, p, hq, hp, by cases h; rfl⟩

theorem poolAdvance_cons {c : Config} {tbl : List U16} {lfsr : U16} {v : Voice} {vs : List Voice} {q : VoiceStep}
    {p : PoolStep} (hq : voiceAdvance c tbl lfsr v = .ok q) (hp : poolAdvance c tbl q.lfsr vs = .ok p) :
    poolAdvance c tbl lfsr (v :: vs) =
      .ok { clicks := q.out + p.clicks, voices := q.voice :: p.voices, lfsr := p.lfsr } := by
  unfold poolAdvance
  simp only [hq, hp]

/-- Slots that are all inactive add 0, draw nothing and keep their values (R142, R221). -/
theorem poolAdvance_inactive (c : Config) (tbl : List U16) (lfsr : U16) (vs : List Voice)
    (h : ∀ v ∈ vs, v.active = false) :
    poolAdvance c tbl lfsr vs = .ok { clicks := 0, voices := vs, lfsr := lfsr } := by
  induction vs with
  | nil => rfl
  | cons v vs ih =>
    have hv := voiceAdvance_inactive c tbl lfsr (h v (by simp))
    have hp := ih (fun u hu => h u (by simp [hu]))
    rw [poolAdvance_cons hv hp]
    simp

/-- R65: with tables of their lengths, the pool's advance never stops. -/
theorem poolAdvance_answers {c : Config} {tbl : List U16} (hw : c.attackWave.length = c.attackSamples)
    (ht : tbl.length = c.attackSamples) (hs : c.sineTable.length = 256) (vs : List Voice) :
    ∀ lfsr, ∃ r, poolAdvance c tbl lfsr vs = .ok r := by
  induction vs with
  | nil => exact fun _ => ⟨_, rfl⟩
  | cons v vs ih =>
    intro lfsr
    obtain ⟨q, hq⟩ := voiceAdvance_answers hw ht hs lfsr v
    obtain ⟨p, hp⟩ := ih q.lfsr
    exact ⟨_, poolAdvance_cons hq hp⟩

/-! ### The click trigger (R132) -/

@[simp] theorem triggeredPool_nil (c : Config) : triggeredPool c [] = [] := rfl

@[simp] theorem triggeredPool_cons (c : Config) (v : Voice) (vs : List Voice) :
    triggeredPool c (v :: vs) = armedVoice c :: vs.map voiceClear := rfl

@[simp] theorem triggeredPool_length (c : Config) (vs : List Voice) : (triggeredPool c vs).length = vs.length := by
  cases vs <;> simp

theorem triggeredPool_tail_inactive (c : Config) (vs : List Voice) : ∀ v ∈ (triggeredPool c vs).tail, v.active = false := by
  cases vs with
  | nil => simp
  | cons v vs =>
    intro u hu
    simp only [triggeredPool_cons, List.tail_cons, List.mem_map] at hu
    obtain ⟨_, _, rfl⟩ := hu
    rfl

theorem triggeredPool_pos (c : Config) (vs : List Voice) : ∀ v ∈ triggeredPool c vs, v.pos = 0 := by
  cases vs with
  | nil => simp
  | cons v vs =>
    intro u hu
    simp only [triggeredPool_cons, List.mem_cons, List.mem_map] at hu
    rcases hu with rfl | ⟨_, _, rfl⟩ <;> rfl

end Sys2Proof.Machine
end

