-- ==== Sys2Proof/Laws/SubUnits.lean ====
section
/-! SUPPORT. What the advances of the burst scheduler, the sequencer and the oscillator, a tone start and a TICK can do, said once
(42_burst_scheduler.md R161, 43_beep_oscillator.md R180-R183, 44_pattern_sequencer.md R203, 45_mixer_tick.md R220). -/

namespace Sys2Proof.Machine

/-! ### The burst scheduler -/

@[simp] theorem State.burstCounted_config (s : State) : s.burstCounted.config = s.config := rfl
@[simp] theorem State.burstCounted_lfsr (s : State) : s.burstCounted.lfsr = s.lfsr := rfl
@[simp] theorem State.burstCounted_voices (s : State) : s.burstCounted.voices = s.voices := rfl
@[simp] theorem State.burstCounted_burst (s : State) : s.burstCounted.burst = s.burst.counted := rfl
@[simp] theorem State.burstCounted_osc (s : State) : s.burstCounted.osc = s.osc := rfl
@[simp] theorem State.burstCounted_pattern (s : State) : s.burstCounted.pattern = s.pattern := rfl
@[simp] theorem State.burstCounted_volume (s : State) : s.burstCounted.volume = s.volume := rfl
@[simp] theorem State.burstCounted_ill (s : State) : s.burstCounted.ill = s.ill := rfl
@[simp] theorem State.burstCounted_attackEnv (s : State) : s.burstCounted.attackEnv = s.attackEnv := rfl
@[simp] theorem State.burstCounted_pending (s : State) : s.burstCounted.pending = s.pending := rfl
@[simp] theorem State.burstCounted_resp (s : State) : s.burstCounted.resp = s.resp := rfl

/-- R161: everything one burst advance can do. -/
theorem burstAdvance_cases (s : State) :
    (s.burst.active = false ∧ s.burstAdvance = s) ∨
    (s.burst.active = true ∧ ¬ (countedDelay s.burst.delay = 0 ∧ 0 < s.burst.rem.toNat) ∧ s.burstAdvance = s.burstCounted) ∨
    (s.burst.active = true ∧ countedDelay s.burst.delay = 0 ∧ 0 < s.burst.rem.toNat ∧
      s.burstAdvance = s.burstCounted.burstFire) := by
  unfold State.burstAdvance
  by_cases ha : s.burst.active = false
  · exact .inl ⟨ha, if_pos ha⟩
  · have ha' : s.burst.active = true := by simpa using ha
    rw [if_neg ha]
    by_cases hf : countedDelay s.burst.delay = 0 ∧ 0 < s.burst.rem.toNat
    · exact .inr (.inr ⟨ha', hf.1, hf.2, if_pos hf⟩)
    · exact .inr (.inl ⟨ha', hf, if_neg hf⟩)

/-- R161: everything one fire can do. -/
theorem burstFire_cases (s : State) :
    (firedRem s.burst.rem = 0 ∧
      s.burstFire = s.clickTrigger.withBurst s.burst.ended) ∨
    (firedRem s.burst.rem ≠ 0 ∧
      s.burstFire = (s.clickTrigger.withBurst (s.burst.redrawn (delayDraw s.config s.lfsr))).withLfsr
        (nextDraw s.config s.lfsr)) := by
  unfold State.burstFire
  by_cases h : firedRem s.burst.rem = 0
  · exact .inl ⟨h, if_pos h⟩
  · exact .inr ⟨h, if_neg h⟩

theorem firedRem_toNat (r : U8) : (firedRem r).toNat = r.toNat - 1 := by
  unfold firedRem
  have h : r.toNat < 256 := r.isLt
  simp only [BitVec.toNat_ofNat]
  omega

theorem countedDelay_toNat (d : U16) : (countedDelay d).toNat = d.toNat - 1 := by
  unfold countedDelay
  have h : d.toNat < 65536 := d.isLt
  simp only [BitVec.toNat_ofNat]
  omega

/-- The burst advance leaves the configuration, the tables, the oscillator, the sequencer and the registers of control alone. -/
theorem burstAdvance_frame (s : State) :
    s.burstAdvance.config = s.config ∧ s.burstAdvance.osc = s.osc ∧ s.burstAdvance.pattern = s.pattern ∧
      s.burstAdvance.volume = s.volume ∧ s.burstAdvance.ill = s.ill ∧ s.burstAdvance.attackEnv = s.attackEnv ∧
      s.burstAdvance.pending = s.pending ∧ s.burstAdvance.resp = s.resp := by
  rcases burstAdvance_cases s with ⟨_, h⟩ | ⟨_, _, h⟩ | ⟨_, _, _, h⟩
  · simp [h]
  · simp [h]
  · rcases burstFire_cases s.burstCounted with ⟨_, h2⟩ | ⟨_, h2⟩ <;> rw [h, h2] <;> simp

/-! ### The oscillator -/

/-- R180, R181: a tone start silences, or stores the four fields. -/
theorem beepStart_cases (c : Config) (freq dur : U16) (lvl : U8) (o : Osc) :
    ((sampleCount c dur = 0 ∨ lvl = 0) ∧ beepStart c freq dur lvl o = Osc.zero) ∨
    (sampleCount c dur ≠ 0 ∧ lvl ≠ 0 ∧ beepStart c freq dur lvl o =
      { phase := if c.beepPhaseReset then 0 else o.phase
        step := BitVec.ofNat 32 (phaseStep c (clampFreq c freq))
        srem := BitVec.ofNat 32 (sampleCount c dur)
        level := lvl }) := by
  unfold beepStart
  by_cases h : sampleCount c dur = 0 ∨ lvl = 0
  · exact .inl ⟨h, by rw [if_pos h]; rfl⟩
  · refine .inr ⟨fun h0 => h (.inl h0), fun h0 => h (.inr h0), ?_⟩
    rw [if_neg h]

/-- R180: the phase step is below 2^32, because the clamped frequency is below SAMPLE_RATE (R7). -/
theorem phaseStep_lt {c : Config} {f : Nat} (h1 : c.sampleRate ≤ 65535) (hf : f < c.sampleRate) : phaseStep c f < 2 ^ 32 := by
  unfold phaseStep
  apply Nat.div_lt_of_lt_mul
  omega

theorem Osc.advance_inactive {o : Osc} (h : o.srem = 0) : o.advance = o := by
  unfold Osc.advance
  exact if_pos h

theorem Osc.sample_inactive {o : Osc} (h : o.srem = 0) : o.sample = 0 := by
  unfold Osc.sample
  exact if_pos h

theorem Osc.advance_active {o : Osc} (h : o.srem ≠ 0) :
    o.advance = { o with phase := o.phase + o.step, srem := o.srem - 1 } := by
  unfold Osc.advance
  exact if_neg h

/-- R183: the sample is one of three values. -/
theorem Osc.sample_cases (o : Osc) :
    o.sample = 0 ∨ o.sample = (o.level.toNat : Int) * 128 ∨ o.sample = -((o.level.toNat : Int) * 128) := by
  unfold Osc.sample Osc.amplitude
  split
  · exact .inl rfl
  · split
    · exact .inr (.inl rfl)
    · exact .inr (.inr rfl)

theorem Osc.sounding_iff (o : Osc) : o.sounding = true ↔ o.srem ≠ 0 := by
  unfold Osc.sounding
  rw [decide_eq_true_iff]
  constructor
  · intro h h0
    rw [h0] at h
    exact absurd h (by decide)
  · intro h
    rcases Nat.eq_zero_or_pos o.srem.toNat with h0 | h0
    · exact absurd (BitVec.eq_of_toNat_eq (by simpa using h0)) h
    · exact h0

/-! ### The sequencer -/

/-- R203: everything one sequencer advance can do. -/
theorem patternAdvance_cases (s : State) :
    (s.pattern.active = false ∧ s.patternAdvance = s) ∨
    (s.pattern.active = true ∧ s.pattern.srem = 0 ∧ s.dueStep = none ∧
      s.patternAdvance = s.withPattern s.pattern.ended) ∨
    (∃ st, s.pattern.active = true ∧ s.pattern.srem = 0 ∧ s.dueStep = some st ∧
      s.patternAdvance = (s.loadStep st).withPattern (s.loadStep st).pattern.countDown) ∨
    (s.pattern.active = true ∧ s.pattern.srem ≠ 0 ∧
      s.patternAdvance = s.withPattern s.pattern.countDown) := by
  unfold State.patternAdvance
  by_cases ha : s.pattern.active = false
  · exact .inl ⟨ha, if_pos ha⟩
  · have ha' : s.pattern.active = true := by simpa using ha
    rw [if_neg ha]
    by_cases h0 : s.pattern.srem = 0
    · rw [if_pos h0]
      cases hd : s.dueStep with
      | none => exact .inr (.inl ⟨ha', h0, rfl, rfl⟩)
      | some st => exact .inr (.inr (.inl ⟨st, ha', h0, rfl, rfl⟩))
    · refine .inr (.inr (.inr ⟨ha', h0, ?_⟩))
      rw [if_neg h0]

theorem Pattern.countDown_of_ne {p : Pattern} (h : p.srem ≠ 0) : p.countDown = { p with srem := p.srem - 1 } := by
  unfold Pattern.countDown
  exact if_neg h

theorem Pattern.countDown_of_eq {p : Pattern} (h : p.srem = 0) : p.countDown = p := by
  unfold Pattern.countDown
  exact if_pos h

/-- Counting down changes P.SREM alone. -/
theorem Pattern.countDown_frame (p : Pattern) :
    p.countDown.tvalid = p.tvalid ∧ p.countDown.tid = p.tid ∧ p.countDown.idx = p.idx ∧ p.countDown.active = p.active := by
  unfold Pattern.countDown
  split <;> exact ⟨rfl, rfl, rfl, rfl⟩

@[simp] theorem State.loadStep_config (s : State) (st : PatternStep) : (s.loadStep st).config = s.config := rfl
@[simp] theorem State.loadStep_lfsr (s : State) (st : PatternStep) : (s.loadStep st).lfsr = s.lfsr := rfl
@[simp] theorem State.loadStep_voices (s : State) (st : PatternStep) : (s.loadStep st).voices = s.voices := rfl
@[simp] theorem State.loadStep_burst (s : State) (st : PatternStep) : (s.loadStep st).burst = s.burst := rfl
@[simp] theorem State.loadStep_volume (s : State) (st : PatternStep) : (s.loadStep st).volume = s.volume := rfl
@[simp] theorem State.loadStep_ill (s : State) (st : PatternStep) : (s.loadStep st).ill = s.ill := rfl
@[simp] theorem State.loadStep_attackEnv (s : State) (st : PatternStep) : (s.loadStep st).attackEnv = s.attackEnv := rfl
@[simp] theorem State.loadStep_pending (s : State) (st : PatternStep) : (s.loadStep st).pending = s.pending := rfl
@[simp] theorem State.loadStep_resp (s : State) (st : PatternStep) : (s.loadStep st).resp = s.resp := rfl

@[simp] theorem State.loadStep_pattern (s : State) (st : PatternStep) :
    (s.loadStep st).pattern = s.pattern.loaded (BitVec.ofNat 32 (sampleCount s.config st.durationMs)) := rfl

@[simp] theorem State.loadStep_osc (s : State) (st : PatternStep) :
    (s.loadStep st).osc = if st.isTone then beepStart s.config st.freqHz st.durationMs st.level s.osc else s.osc := rfl

/-- The sequencer's advance leaves everything but the sequencer and the oscillator alone. -/
theorem patternAdvance_frame (s : State) :
    s.patternAdvance.config = s.config ∧ s.patternAdvance.lfsr = s.lfsr ∧ s.patternAdvance.voices = s.voices ∧
      s.patternAdvance.burst = s.burst ∧ s.patternAdvance.volume = s.volume ∧ s.patternAdvance.ill = s.ill ∧
      s.patternAdvance.attackEnv = s.attackEnv ∧ s.patternAdvance.pending = s.pending ∧ s.patternAdvance.resp = s.resp := by
  rcases patternAdvance_cases s with ⟨_, h⟩ | ⟨_, _, _, h⟩ | ⟨st, _, _, _, h⟩ | ⟨_, _, h⟩ <;> simp [h]

/-! ### TICK -/

/-- R220: when TICK answers a next state, that state is the mix of the pool's advance. -/
theorem execTick_next {s t : State} (h : exec .tick s = .next t) :
    ∃ r, poolAdvance s.beforeVoices.config s.beforeVoices.attackEnv s.beforeVoices.lfsr s.beforeVoices.voices = .ok r ∧
      t = s.beforeVoices.mixed r := by
  simp only [exec, execTick] at h
  split at h
  · cases h
  · rename_i r hr
    exact ⟨r, hr, by cases h; rfl⟩

theorem execTick_of_pool {s : State} {r : PoolStep}
    (h : poolAdvance s.beforeVoices.config s.beforeVoices.attackEnv s.beforeVoices.lfsr s.beforeVoices.voices = .ok r) :
    exec .tick s = .next (s.beforeVoices.mixed r) := by
  simp only [exec, execTick, h]

theorem beforeVoices_config (s : State) : s.beforeVoices.config = s.config := by
  unfold State.beforeVoices
  rw [(patternAdvance_frame _).1, (burstAdvance_frame s).1]

theorem beforeVoices_attackEnv (s : State) : s.beforeVoices.attackEnv = s.attackEnv := by
  unfold State.beforeVoices
  rw [(patternAdvance_frame _).2.2.2.2.2.2.1, (burstAdvance_frame s).2.2.2.2.2.1]

theorem beforeVoices_lfsr (s : State) : s.beforeVoices.lfsr = s.burstAdvance.lfsr := by
  unfold State.beforeVoices
  rw [(patternAdvance_frame _).2.1]

theorem beforeVoices_voices (s : State) : s.beforeVoices.voices = s.burstAdvance.voices := by
  unfold State.beforeVoices
  rw [(patternAdvance_frame _).2.2.1]

end Sys2Proof.Machine
end

