-- ==== Sys2Proof/Laws/Tables.lean ====
section
/-! SUPPORT. The tables: the shape of ATTACK_ENV (41_click_voice.md R130), and what a configuration inside R7 says. -/

namespace Sys2Proof.Machine

theorem attackEnvFrom_length (d : U16) : ∀ (n : Nat) (e : U16), (attackEnvFrom d n e).length = n
  | 0, _ => rfl
  | n + 1, e => by simp [attackEnvFrom, attackEnvFrom_length d n]

@[simp] theorem attackEnvTable_length (c : Config) : (attackEnvTable c).length = c.attackSamples :=
  attackEnvFrom_length _ _ _

end Sys2Proof.Machine

namespace Sys2Proof

@[simp] theorem hasEntries_iff {α : Type} : ∀ (n : Nat) (xs : List α), hasEntries n xs = true ↔ xs.length = n
  | 0, [] => by simp [hasEntries]
  | 0, _ :: _ => by simp [hasEntries]
  | _ + 1, [] => by simp [hasEntries]
  | n + 1, _ :: xs => by simp [hasEntries, hasEntries_iff n xs]

/-- R7 and the types of R6, as propositions. -/
theorem Config.wf_iff (c : Config) :
    c.wf = true ↔
      (c.lfsrSeed ≠ 0 ∧ c.lfsrReseed ≠ 0) ∧
      (c.minFreqHz.toNat ≤ c.maxFreqHz.toNat ∧ c.maxFreqHz.toNat < c.sampleRate) ∧
      (1 ≤ c.sampleRate ∧ c.sampleRate ≤ 65535) ∧
      c.burstDelayMin.toNat ≤ c.burstDelayMax.toNat ∧
      (1 ≤ c.attackSamples ∧ c.attackSamples ≤ 65535) ∧
      (1 ≤ c.tailMaxSamples ∧ c.tailMaxSamples ≤ 65535) ∧
      (c.patternTable.single.length ≤ 255 ∧ c.patternTable.double.length ≤ 255 ∧ c.patternTable.error.length ≤ 255 ∧
        c.patternTable.alert.length ≤ 255) ∧
      (1 ≤ c.maxVoices ∧ c.maxVoices ≤ 4) ∧
      c.noiseShift ≤ 15 ∧ c.volumeReset ≤ 100 ∧ c.attackWave.length = c.attackSamples ∧ c.sineTable.length = 256 := by
  simp only [Config.wf, Config.seedsNonzero, Config.freqRange, Config.sampleRateRange, Config.burstDelayRange,
    Config.attackSamplesRange, Config.tailMaxRange, Config.patternLengths, Config.maxVoicesRange, Config.noiseShiftRange,
    Config.volumeResetRange, Config.attackWaveLength, Config.sineTableLength, Bool.and_eq_true, decide_eq_true_iff,
    bne_iff_ne, hasEntries_iff]

theorem Config.accepted_iff (c : Config) : c.accepted = true ↔ c.wf = true ∧ c.patternShapes = true := by
  simp only [Config.accepted, Bool.and_eq_true]

theorem Config.wf_of_accepted {c : Config} (h : c.accepted = true) : c.wf = true := ((Config.accepted_iff c).1 h).1

/-- R201: the shape of Single, Error and Alert. -/
theorem isOneTone_iff (sts : List PatternStep) :
    isOneTone sts = true ↔ sts = [] ∨ ∃ st, sts = [st] ∧ st.isTone = true := by
  rcases sts with _ | ⟨st, _ | ⟨st2, sts⟩⟩ <;> simp [isOneTone]

/-- R201: the shape and the durations of Double. -/
theorem isToneGapTone_iff (sts : List PatternStep) :
    isToneGapTone sts = true ↔ sts = [] ∨ ∃ t1 gap t2, sts = [t1, gap, t2] ∧ t1.isTone = true ∧ gap.isTone = false ∧
      t2.isTone = true ∧ t1.durationMs = 150 ∧ gap.durationMs = 150 ∧ t2.durationMs = 150 := by
  rcases sts with _ | ⟨t1, _ | ⟨gap, _ | ⟨t2, _ | ⟨t3, sts⟩⟩⟩⟩ <;> simp [isToneGapTone]

/-- R7: every step list has at most 255 steps, so P.IDX does not wrap. -/
theorem patternSteps_length_le {c : Config} (h : c.wf = true) (tid : BitVec 2) :
    (Machine.patternSteps c tid).length ≤ 255 := by
  have h2 := ((Config.wf_iff c).1 h).2.2.2.2.2.2.1
  unfold Machine.patternSteps
  split <;> omega

end Sys2Proof
end

