-- ==== Sys2Proof/Laws/Exec.lean ====
section
/-! SUPPORT. What every instruction's meaning keeps: the configuration (70_reset_and_hazards.md R282) and the words still pending. -/

namespace Sys2Proof.Machine

theorem beforeVoices_pending (s : State) : s.beforeVoices.pending = s.pending := by
  unfold State.beforeVoices
  rw [(patternAdvance_frame _).2.2.2.2.2.2.2.1, (burstAdvance_frame _).2.2.2.2.2.2.1]

theorem beforeVoices_volume (s : State) : s.beforeVoices.volume = s.volume := by
  unfold State.beforeVoices
  rw [(patternAdvance_frame _).2.2.2.2.1, (burstAdvance_frame _).2.2.2.1]

theorem beforeVoices_ill (s : State) : s.beforeVoices.ill = s.ill := by
  unfold State.beforeVoices
  rw [(patternAdvance_frame _).2.2.2.2.2.1, (burstAdvance_frame _).2.2.2.2.1]

/-- TRIGGER_BURST answers a next state, the no-op or the armed burst. -/
theorem execTriggerBurst_cases (mn mx : U8) (s : State) :
    (mn = 0 ∧ mx = 0 ∧ exec (.triggerBurst mn mx) s = .next (s.respond 0)) ∨
    (¬ (mn = 0 ∧ mx = 0) ∧ exec (.triggerBurst mn mx) s = .next ((s.armBurst mn mx).respond 0)) := by
  by_cases h : mn = 0 ∧ mx = 0
  · exact .inl ⟨h.1, h.2, by simp only [exec, execTriggerBurst, if_pos h]⟩
  · exact .inr ⟨h, by simp only [exec, execTriggerBurst, if_neg h]⟩

theorem exec_config_pending {i : Instr} {s t : State} (h : exec i s = .next t) :
    t.config = s.config ∧ t.pending = s.pending := by
  cases i with
  | tick =>
    obtain ⟨r, _, rfl⟩ := execTick_next h
    exact ⟨beforeVoices_config s, beforeVoices_pending s⟩
  | triggerBurst mn mx =>
    rcases execTriggerBurst_cases mn mx s with ⟨_, _, h1⟩ | ⟨_, h1⟩ <;> rw [h1] at h <;> cases h <;> exact ⟨rfl, rfl⟩
  | _ => cases h; exact ⟨rfl, rfl⟩

end Sys2Proof.Machine
end

