-- ==== Sys2Proof/Laws/Flags.lean ====
section
/-! SUPPORT. The status word, bit by bit (10_state.md R40, 46_control.md R244), and when each derived flag is 1. -/

namespace Sys2Proof.Machine

/-- The bits of a status word built from its five flags. -/
theorem statusWord_bits (v o p b i : Bool) :
    (0#11 ++ (BitVec.ofBool v ++ (BitVec.ofBool o ++ (BitVec.ofBool p ++ (BitVec.ofBool b ++ BitVec.ofBool i))))).toNat =
      v.toNat * 16 + o.toNat * 8 + p.toNat * 4 + b.toNat * 2 + i.toNat := by
  cases v <;> cases o <;> cases p <;> cases b <;> cases i <;> rfl

theorem status_toNat (s : State) :
    s.status.toNat = s.voiceActive.toNat * 16 + s.osc.sounding.toNat * 8 + s.pattern.active.toNat * 4 +
      s.burst.active.toNat * 2 + s.ill.toNat := statusWord_bits _ _ _ _ _

/-- R40: bit 0 is ILL, bit 1 B.ACTIVE, bit 2 P.ACTIVE, bit 3 the oscillator, bit 4 the voices; the others are 0. -/
theorem status_getLsbD (s : State) :
    s.status.getLsbD 0 = s.ill ∧ s.status.getLsbD 1 = s.burst.active ∧ s.status.getLsbD 2 = s.pattern.active ∧
      s.status.getLsbD 3 = s.osc.sounding ∧ s.status.getLsbD 4 = s.voiceActive ∧
      ∀ k : Nat, 5 ≤ k → s.status.getLsbD k = false := by
  simp only [BitVec.getLsbD, status_toNat]
  cases s.voiceActive <;> cases s.osc.sounding <;> cases s.pattern.active <;> cases s.burst.active <;> cases s.ill <;>
    refine ⟨rfl, rfl, rfl, rfl, rfl, fun k hk => Nat.testBit_lt_two_pow (Nat.lt_of_lt_of_le ?_ (Nat.pow_le_pow_right (by decide) hk))⟩ <;>
    decide

theorem voiceActive_iff (s : State) : s.voiceActive = true ↔ ∃ v ∈ s.voices, v.active = true := by
  simp [State.voiceActive]

end Sys2Proof.Machine
end

