-- ==== Sys2Proof/Laws/Invariant.lean ====
section
/-! SUPPORT. The invariant of 10_state.md R49 under the named updates and under each sub-unit's advance: the pieces from which a proof that
every step keeps it is put together. -/

namespace Sys2Proof.Machine

theorem u8_pos {r : BitVec 8} (h : r ≠ 0) : 1 ≤ r.toNat := by
  rcases Nat.eq_zero_or_pos r.toNat with h0 | h0
  · exact absurd (BitVec.eq_of_toNat_eq (by simpa using h0)) h
  · exact h0

/-- the parts of the invariant about the burst -/
theorem inv_withBurst {s : State} (h : s.Inv) (b : Burst) (h1 : b.active = true → 1 ≤ b.rem.toNat)
    (h2 : b.active = false → b.rem = 0) : (s.withBurst b).Inv := { h with burst_armed := h1, burst_idle := h2 }

theorem inv_withLfsr {s : State} (h : s.Inv) (v : U16) (h1 : v ≠ 0) : (s.withLfsr v).Inv := { h with lfsr_ne_zero := h1 }

theorem inv_withOsc {s : State} (h : s.Inv) (o : Osc) (h1 : o.srem ≠ 0 → 1 ≤ o.level.toNat) : (s.withOsc o).Inv :=
  { h with level_pos := h1 }

theorem inv_withPattern {s : State} (h : s.Inv) (p : Pattern) (h1 : p.active = true → p.tvalid = true)
    (h2 : p.tvalid = true → p.idx.toNat ≤ (patternSteps s.config p.tid).length) : (s.withPattern p).Inv :=
  { h with pattern_valid := h1, pattern_idx := h2 }

theorem inv_withVoices {s : State} (h : s.Inv) (vs : List Voice) (h1 : vs.length = s.voices.length)
    (h2 : ∀ v ∈ vs, v.pos.toNat ≤ s.config.tailMaxSamples) (h3 : ∀ v ∈ vs.tail, v.active = false) :
    (s.withVoices vs).Inv :=
  { h with pool_length := h1.trans h.pool_length, pos_le := h2, only_slot_zero := h3 }

theorem inv_withVolume {s : State} (h : s.Inv) (v : BitVec 7) (h1 : v.toNat ≤ 100) : (s.withVolume v).Inv :=
  { h with volume_le := h1 }

theorem inv_respond {s : State} (h : s.Inv) (v : U16) : (s.respond v).Inv := { h with }
theorem inv_withPending {s : State} (h : s.Inv) (q : List Word48) : (s.withPending q).Inv := { h with }
theorem inv_raiseIllegal {s : State} (h : s.Inv) : s.raiseIllegal.Inv := { h with }

theorem inv_clickTrigger {s : State} (h : s.Inv) : s.clickTrigger.Inv := by
  apply inv_withVoices h
  · simp
  · intro v hv
    rw [triggeredPool_pos _ _ v hv]
    simp
  · exact triggeredPool_tail_inactive _ _

theorem inv_nextDraw {s : State} (h : s.Inv) (r : U16) : nextDraw s.config r ≠ 0 :=
  nextDraw_ne_zero ((Config.wf_iff _).1 h.config_wf).1.2 r

theorem inv_burstFire {s : State} (h : s.Inv) (ha : s.burst.active = true) : s.burstFire.Inv := by
  rcases burstFire_cases s with ⟨h1, h2⟩ | ⟨h1, h2⟩
  · rw [h2]
    exact inv_withBurst (inv_clickTrigger h) _ (fun h0 => Bool.noConfusion h0) (fun _ => h1)
  · rw [h2]
    refine inv_withLfsr (inv_withBurst (inv_clickTrigger h) (s.burst.redrawn (delayDraw s.config s.lfsr)) (fun _ => u8_pos h1) (fun h0 => Bool.noConfusion (ha.symm.trans h0))) _ ?_
    exact inv_nextDraw h _

theorem inv_burstCounted {s : State} (h : s.Inv) : s.burstCounted.Inv := inv_withBurst h s.burst.counted h.burst_armed h.burst_idle

theorem inv_burstAdvance {s : State} (h : s.Inv) : s.burstAdvance.Inv := by
  rcases burstAdvance_cases s with ⟨_, h1⟩ | ⟨_, _, h1⟩ | ⟨ha, _, _, h1⟩ <;> rw [h1]
  · exact h
  · exact inv_burstCounted h
  · exact inv_burstFire (inv_burstCounted h) ha

theorem inv_beepStart (c : Config) (f d : U16) (l : U8) (o : Osc) :
    (beepStart c f d l o).srem ≠ 0 → 1 ≤ (beepStart c f d l o).level.toNat := by
  rcases beepStart_cases c f d l o with ⟨_, h⟩ | ⟨_, hl, h⟩ <;> rw [h]
  · intro h0; exact absurd rfl h0
  · intro _; exact u8_pos hl

theorem inv_loadStep {s : State} (h : s.Inv) {st : PatternStep} (ha : s.pattern.active = true) (hd : s.dueStep = some st) :
    (s.loadStep st).Inv := by
  refine inv_withOsc (inv_withPattern h
    (s.pattern.loaded (BitVec.ofNat 32 (sampleCount s.config st.durationMs))) (fun _ => h.pattern_valid ha) ?_) _ ?_
  · intro _
    have hlt : s.pattern.idx.toNat < (patternSteps s.config s.pattern.tid).length := by
      unfold State.dueStep at hd
      exact (List.getElem?_eq_some_iff.1 hd).1
    have := patternSteps_length_le h.config_wf s.pattern.tid
    show (s.pattern.idx + 1).toNat ≤ (patternSteps s.config s.pattern.tid).length
    rw [BitVec.toNat_add]
    simp
    omega
  · split
    · exact inv_beepStart _ _ _ _ _
    · exact h.level_pos

theorem inv_patternAdvance {s : State} (h : s.Inv) : s.patternAdvance.Inv := by
  rcases patternAdvance_cases s with ⟨_, h1⟩ | ⟨_, _, _, h1⟩ | ⟨st, ha, _, hd, h1⟩ | ⟨ha, _, h1⟩ <;> rw [h1]
  · exact h
  · exact inv_withPattern h s.pattern.ended (fun h0 => Bool.noConfusion h0) h.pattern_idx
  · have hl := inv_loadStep h ha hd
    refine inv_withPattern hl _ ?_ ?_
    · rw [(Pattern.countDown_frame _).1, (Pattern.countDown_frame _).2.2.2]; exact hl.pattern_valid
    · rw [(Pattern.countDown_frame _).1, (Pattern.countDown_frame _).2.1, (Pattern.countDown_frame _).2.2.1]
      exact hl.pattern_idx
  · refine inv_withPattern h _ ?_ ?_
    · rw [(Pattern.countDown_frame _).1, (Pattern.countDown_frame _).2.2.2]; exact h.pattern_valid
    · rw [(Pattern.countDown_frame _).1, (Pattern.countDown_frame _).2.1, (Pattern.countDown_frame _).2.2.1]
      exact h.pattern_idx

theorem voiceAdvance_lfsr {c : Config} {tbl lfsr v r} (h : voiceAdvance c tbl lfsr v = .ok r) :
    r.lfsr = lfsr ∨ r.lfsr = nextDraw c (nextDraw c lfsr) := by
  rcases voiceAdvance_cases h with ⟨_, rfl⟩ | ⟨_, _, rfl⟩ | ⟨_, _, _, _, _, _, _, rfl⟩ | ⟨_, _, _, _, _, rfl⟩
  · exact .inl rfl
  · exact .inl rfl
  · exact .inl rfl
  · exact .inr rfl

theorem voiceAdvance_pos {c : Config} {tbl lfsr v r} (h : voiceAdvance c tbl lfsr v = .ok r) (hc : c.tailMaxSamples ≤ 65535)
    (hp : v.pos.toNat ≤ c.tailMaxSamples) : r.voice.pos.toNat ≤ c.tailMaxSamples := by
  have key : v.pos.toNat < c.tailMaxSamples → (v.pos + 1).toNat ≤ c.tailMaxSamples := by
    intro hlt
    rw [BitVec.toNat_add]
    simp
    omega
  rcases voiceAdvance_cases h with ⟨_, rfl⟩ | ⟨_, _, rfl⟩ | ⟨_, hlt, _, _, _, _, _, rfl⟩ | ⟨_, hlt, _, _, _, rfl⟩
  · exact hp
  · exact hp
  · exact key hlt
  · exact key hlt

theorem voiceAdvance_active {c : Config} {tbl lfsr v r} (h : voiceAdvance c tbl lfsr v = .ok r) (ha : r.voice.active = true) :
    v.active = true := by
  rcases voiceAdvance_cases h with ⟨_, rfl⟩ | ⟨ha, _, rfl⟩ | ⟨ha, hlt, _, _, _, _, _, rfl⟩ | ⟨ha, hlt, _, _, _, rfl⟩
  · exact ha
  all_goals assumption

theorem poolAdvance_inv {c : Config} {tbl : List U16} (hr : c.lfsrReseed ≠ 0) (hc : c.tailMaxSamples ≤ 65535) :
    ∀ (vs : List Voice) (lfsr : U16) (r : PoolStep), poolAdvance c tbl lfsr vs = .ok r → lfsr ≠ 0 →
      (∀ v ∈ vs, v.pos.toNat ≤ c.tailMaxSamples) →
      r.lfsr ≠ 0 ∧ r.voices.length = vs.length ∧ (∀ v ∈ r.voices, v.pos.toNat ≤ c.tailMaxSamples)
  | [], lfsr, r, h, h0, hp => by cases h; exact ⟨h0, rfl, by simp⟩
  | v :: vs, lfsr, r, h, h0, hp => by
    obtain ⟨q, p, hq, hp2, rfl⟩ := poolAdvance_cons_ok h
    have hq0 : q.lfsr ≠ 0 := by
      rcases voiceAdvance_lfsr hq with h1 | h1 <;> rw [h1]
      · exact h0
      · exact nextDraw_ne_zero hr _
    obtain ⟨i1, i2, i3⟩ := poolAdvance_inv hr hc vs q.lfsr p hp2 hq0 (fun u hu => hp u (by simp [hu]))
    refine ⟨i1, by simp [i2], ?_⟩
    intro u hu
    rcases List.mem_cons.1 hu with rfl | hu
    · exact voiceAdvance_pos hq hc (hp v (by simp))
    · exact i3 u hu

theorem poolAdvance_tail {c : Config} {tbl : List U16} {lfsr : U16} {vs : List Voice} {r : PoolStep}
    (h : poolAdvance c tbl lfsr vs = .ok r) (ht : ∀ v ∈ vs.tail, v.active = false) : r.voices.tail = vs.tail := by
  cases vs with
  | nil => cases h; rfl
  | cons v vs =>
    obtain ⟨q, p, hq, hp2, rfl⟩ := poolAdvance_cons_ok h
    rw [poolAdvance_inactive c tbl q.lfsr vs ht] at hp2
    cases hp2
    rfl

theorem inv_mixed {s : State} (h : s.Inv) {r : PoolStep} (hr : poolAdvance s.config s.attackEnv s.lfsr s.voices = .ok r) :
    (s.mixed r).Inv := by
  have hw := (Config.wf_iff _).1 h.config_wf
  obtain ⟨i1, i2, i3⟩ := poolAdvance_inv hw.1.2 hw.2.2.2.2.2.1.2 _ _ _ hr h.lfsr_ne_zero h.pos_le
  refine inv_respond (inv_withOsc (inv_withLfsr (inv_withVoices h _ i2 i3 ?_) _ i1) _ ?_) _
  · rw [poolAdvance_tail hr h.only_slot_zero]; exact h.only_slot_zero
  · show s.osc.advance.srem ≠ 0 → 1 ≤ s.osc.advance.level.toNat
    by_cases h0 : s.osc.srem = 0
    · rw [Osc.advance_inactive h0]; intro h1; exact absurd h0 h1
    · rw [Osc.advance_active h0]; intro _; exact h.level_pos h0

theorem resetWith_inv {c : Config} (h : c.wf = true) : (State.resetWith c).Inv := by
  have hw := (Config.wf_iff _).1 h
  constructor
  · exact h
  · exact hw.1.1
  · simp
  · intro v hv
    simp only [State.resetWith_voices] at hv
    rw [List.eq_of_mem_replicate hv]
    simp [Voice.zero]
  · intro v hv
    simp only [State.resetWith_voices] at hv
    rw [List.eq_of_mem_replicate (List.mem_of_mem_tail hv)]
    rfl
  · simp [Burst.zero]
  · intro _; rfl
  · intro h0; exact absurd rfl h0
  · simp [Pattern.zero]
  · simp [Pattern.zero]
  · have := hw.2.2.2.2.2.2.2.2.2.1
    simp
    omega
  · rfl

end Sys2Proof.Machine
end

