-- ==== Sys2Proof/Laws/Words.lean ====
section
/-! SUPPORT. Fields and concatenations of words as numbers (00_scope.md R8), so that claims about encodings are claims of arithmetic. -/

namespace Sys2Proof

/-- `{a, b}` as a number (R8). -/
theorem toNat_append_eq {n m : Nat} (a : BitVec n) (b : BitVec m) : (a ++ b).toNat = a.toNat * 2 ^ m + b.toNat := by
  rw [BitVec.toNat_append, ← Nat.shiftLeft_add_eq_or_of_lt b.isLt, Nat.shiftLeft_eq]

/-- `v[lo+n-1:lo]` as a number (R8). -/
theorem toNat_field {w : Nat} (v : BitVec w) (lo n : Nat) : (v.extractLsb' lo n).toNat = v.toNat / 2 ^ lo % 2 ^ n := by
  rw [BitVec.extractLsb'_toNat, Nat.shiftRight_eq_div_pow]

/-- A bit vector is determined by its number. -/
theorem eq_iff_toNat {n : Nat} (a b : BitVec n) : a = b ↔ a.toNat = b.toNat :=
  ⟨fun h => by rw [h], BitVec.eq_of_toNat_eq⟩

theorem opField_toNat (w : Word48) : (opField w).toNat = w.toNat / 17592186044416 % 16 := toNat_field w 44 4

/-- A strict format answers its instruction exactly when its reserved bits are 0 (R90). -/
theorem strict_ok_iff {n : Nat} (r : BitVec n) (m : String) (i j : Instr) :
    strict r m i = .ok j ↔ r.toNat = 0 ∧ i = j := by
  unfold strict
  by_cases h : r = 0
  · subst h
    simp
  · rw [if_neg h]
    constructor
    · intro h2
      cases h2
    · rintro ⟨h2, _⟩
      exact absurd (BitVec.eq_of_toNat_eq (by simpa using h2)) h

/-! ### The decoder, opcode by opcode (R88) -/

theorem decode_op0 {w : Word48} (h : (opField w).toNat = 0) : decode w = strict (w.extractLsb' 0 44) "NOP" .nop := by
  unfold decode
  rw [h]
  rfl

theorem decode_op1 {w : Word48} (h : (opField w).toNat = 1) : decode w = strict (w.extractLsb' 0 44) "INIT" .init := by
  unfold decode
  rw [h]
  rfl

theorem decode_op2 {w : Word48} (h : (opField w).toNat = 2) : decode w = strict (w.extractLsb' 0 44) "TICK" .tick := by
  unfold decode
  rw [h]
  rfl

theorem decode_op3 {w : Word48} (h : (opField w).toNat = 3) : decode w = strict (w.extractLsb' 0 44) "TRIGGER_CLICK" .triggerClick := by
  unfold decode
  rw [h]
  rfl

theorem decode_op4 {w : Word48} (h : (opField w).toNat = 4) : decode w = strict (w.extractLsb' 16 28) "TRIGGER_BURST" (.triggerBurst (w.extractLsb' 8 8) (w.extractLsb' 0 8)) := by
  unfold decode
  rw [h]
  rfl

theorem decode_op5 {w : Word48} (h : (opField w).toNat = 5) : decode w = strict (w.extractLsb' 40 4) "BEEP_START" (.beepStart (w.extractLsb' 24 16) (w.extractLsb' 8 16) (w.extractLsb' 0 8)) := by
  unfold decode
  rw [h]
  rfl

theorem decode_op6 {w : Word48} (h : (opField w).toNat = 6) : decode w = strict (w.extractLsb' 0 44) "STOP_ALL" .stopAll := by
  unfold decode
  rw [h]
  rfl

theorem decode_op7 {w : Word48} (h : (opField w).toNat = 7) : decode w = strict (w.extractLsb' 8 36) "PATTERN_START" (.patternStart (w.extractLsb' 0 8)) := by
  unfold decode
  rw [h]
  rfl

theorem decode_op8 {w : Word48} (h : (opField w).toNat = 8) : decode w = strict (w.extractLsb' 8 36) "SET_VOLUME" (.setVolume (w.extractLsb' 0 8)) := by
  unfold decode
  rw [h]
  rfl

theorem decode_op9 {w : Word48} (h : (opField w).toNat = 9) : decode w = strict (w.extractLsb' 0 44) "GET_VOLUME" .getVolume := by
  unfold decode
  rw [h]
  rfl

theorem decode_opA {w : Word48} (h : (opField w).toNat = 10) : decode w = strict (w.extractLsb' 0 44) "GET_STATUS" .getStatus := by
  unfold decode
  rw [h]
  rfl

theorem decode_opB {w : Word48} (h : (opField w).toNat = 11) : decode w = strict (w.extractLsb' 0 44) "LFSR_NEXT" .lfsrNext := by
  unfold decode
  rw [h]
  rfl

theorem decode_opC {w : Word48} (h : (opField w).toNat = 12) : decode w = strict (w.extractLsb' 32 12) "LFSR_RANGED" (.lfsrRanged (w.extractLsb' 16 16) (w.extractLsb' 0 16)) := by
  unfold decode
  rw [h]
  rfl

theorem decode_opD {w : Word48} (h : (opField w).toNat = 13) : decode w = .ok (.reservedD (w.extractLsb' 0 44)) := by
  unfold decode
  rw [h]
  rfl

theorem decode_opE {w : Word48} (h : (opField w).toNat = 14) : decode w = .ok (.reservedE (w.extractLsb' 0 44)) := by
  unfold decode
  rw [h]
  rfl

theorem decode_opF {w : Word48} (h : (opField w).toNat = 15) : decode w = .ok (.reservedF (w.extractLsb' 0 44)) := by
  unfold decode
  rw [h]
  rfl

/-- Every opcode is one of the sixteen. -/
theorem opField_cases (w : Word48) : (opField w).toNat < 16 := (opField w).isLt

end Sys2Proof
end

