-- ==== Sys2Proof/Laws/PerInstr.lean ====
section
/-! SUPPORT. Facts about every instruction as syntax, one lemma per constructor. Family `Opcode`: the encoder writes the opcode of R87's table
into W[47:44]. Family `Payload`: the encoder leaves the bits that the format marks `0` (R82-R86) at 0, so the number of the low 44
bits is the operands'. -/

namespace Sys2Proof.Laws.Opcode

/-- The OP column of R87. -/
def opcodeOf : Instr → Nat
  | .nop => 0x0
  | .init => 0x1
  | .tick => 0x2
  | .triggerClick => 0x3
  | .triggerBurst _ _ => 0x4
  | .beepStart _ _ _ => 0x5
  | .stopAll => 0x6
  | .patternStart _ => 0x7
  | .setVolume _ => 0x8
  | .getVolume => 0x9
  | .getStatus => 0xA
  | .lfsrNext => 0xB
  | .lfsrRanged _ _ => 0xC
  | .reservedD _ => 0xD
  | .reservedE _ => 0xE
  | .reservedF _ => 0xF

/-- The encoder's opcode field. -/
def Statement (i : Instr) : Prop := (opField (encode i)).toNat = opcodeOf i

theorem field_of_append (op : BitVec 4) (low : BitVec 44) : (opField (op ++ low)).toNat = op.toNat := by
  have h1 := op.isLt
  have h2 := low.isLt
  rw [opField_toNat, toNat_append_eq]
  omega

theorem nop : Statement .nop := rfl
theorem init : Statement .init := rfl
theorem tick : Statement .tick := rfl
theorem triggerClick : Statement .triggerClick := rfl
theorem triggerBurst (min max : U8) : Statement (.triggerBurst min max) := field_of_append 4 _
theorem beepStart (freq dur : U16) (lvl : U8) : Statement (.beepStart freq dur lvl) := field_of_append 5 _
theorem stopAll : Statement .stopAll := rfl
theorem patternStart (imm : U8) : Statement (.patternStart imm) := field_of_append 7 _
theorem setVolume (imm : U8) : Statement (.setVolume imm) := field_of_append 8 _
theorem getVolume : Statement .getVolume := rfl
theorem getStatus : Statement .getStatus := rfl
theorem lfsrNext : Statement .lfsrNext := rfl
theorem lfsrRanged (rmin rmax : U16) : Statement (.lfsrRanged rmin rmax) := field_of_append 12 _
theorem reservedD (low : BitVec 44) : Statement (.reservedD low) := field_of_append 13 _
theorem reservedE (low : BitVec 44) : Statement (.reservedE low) := field_of_append 14 _
theorem reservedF (low : BitVec 44) : Statement (.reservedF low) := field_of_append 15 _

end Sys2Proof.Laws.Opcode

namespace Sys2Proof.Laws.Payload

/-- The number that the operands make in the low 44 bits (R83-R86, R95). -/
def payloadOf : Instr → Nat
  | .nop => 0
  | .init => 0
  | .tick => 0
  | .triggerClick => 0
  | .triggerBurst min max => min.toNat * 2 ^ 8 + max.toNat
  | .beepStart freq dur lvl => freq.toNat * 2 ^ 24 + dur.toNat * 2 ^ 8 + lvl.toNat
  | .stopAll => 0
  | .patternStart imm => imm.toNat
  | .setVolume imm => imm.toNat
  | .getVolume => 0
  | .getStatus => 0
  | .lfsrNext => 0
  | .lfsrRanged rmin rmax => rmin.toNat * 2 ^ 16 + rmax.toNat
  | .reservedD low => low.toNat
  | .reservedE low => low.toNat
  | .reservedF low => low.toNat

/-- The encoder's word as a number: the opcode and the payload. -/
def Statement (i : Instr) : Prop := (encode i).toNat = Opcode.opcodeOf i * 2 ^ 44 + payloadOf i

theorem nop : Statement .nop := rfl
theorem init : Statement .init := rfl
theorem tick : Statement .tick := rfl
theorem triggerClick : Statement .triggerClick := rfl
theorem triggerBurst (min max : U8) : Statement (.triggerBurst min max) := by
  simp only [Statement, encode, Opcode.opcodeOf, payloadOf, toNat_append_eq, BitVec.toNat_ofNat]
  omega
theorem beepStart (freq dur : U16) (lvl : U8) : Statement (.beepStart freq dur lvl) := by
  simp only [Statement, encode, Opcode.opcodeOf, payloadOf, toNat_append_eq, BitVec.toNat_ofNat]
  omega
theorem stopAll : Statement .stopAll := rfl
theorem patternStart (imm : U8) : Statement (.patternStart imm) := by
  simp only [Statement, encode, Opcode.opcodeOf, payloadOf, toNat_append_eq, BitVec.toNat_ofNat]
  omega
theorem setVolume (imm : U8) : Statement (.setVolume imm) := by
  simp only [Statement, encode, Opcode.opcodeOf, payloadOf, toNat_append_eq, BitVec.toNat_ofNat]
  omega
theorem getVolume : Statement .getVolume := rfl
theorem getStatus : Statement .getStatus := rfl
theorem lfsrNext : Statement .lfsrNext := rfl
theorem lfsrRanged (rmin rmax : U16) : Statement (.lfsrRanged rmin rmax) := by
  simp only [Statement, encode, Opcode.opcodeOf, payloadOf, toNat_append_eq, BitVec.toNat_ofNat]
  omega
theorem reservedD (low : BitVec 44) : Statement (.reservedD low) := by
  simp only [Statement, encode, Opcode.opcodeOf, payloadOf, toNat_append_eq, BitVec.toNat_ofNat]
theorem reservedE (low : BitVec 44) : Statement (.reservedE low) := by
  simp only [Statement, encode, Opcode.opcodeOf, payloadOf, toNat_append_eq, BitVec.toNat_ofNat]
theorem reservedF (low : BitVec 44) : Statement (.reservedF low) := by
  simp only [Statement, encode, Opcode.opcodeOf, payloadOf, toNat_append_eq, BitVec.toNat_ofNat]

end Sys2Proof.Laws.Payload
end

