-- ==== Sys2Proof/Laws/Step.lean ====
section
/-! SUPPORT. Everything one step can do. -/

namespace Sys2Proof.Machine

/-- A step refuses the configuration, waits, or runs the oldest pending word on the state with that word taken. -/
theorem step_cases (s : State) :
    (s.config.accepted = false ∧ step s = .refused .configOutsideSpec) ∨
    (s.config.accepted = true ∧ s.pending = [] ∧ step s = .next s) ∨
    (∃ w rest, s.config.accepted = true ∧ s.pending = w :: rest ∧ step s = execWord w (s.withPending rest)) := by
  unfold step State.fetch
  cases hc : s.config.accepted with
  | false => exact .inl ⟨rfl, rfl⟩
  | true =>
    cases hp : s.pending with
    | nil => exact .inr (.inl ⟨rfl, rfl, rfl⟩)
    | cons w rest => exact .inr (.inr ⟨w, rest, rfl, rfl, rfl⟩)

end Sys2Proof.Machine
end

