-- ==== Sys2Proof/Tests/Slice0.lean ====
section
/-! SUPPORT. The model's own tests. Expected values come from spec/: the section of 95_test_vectors.md or the rule is named at
each test. Then, for every statement with hypotheses, a witness: a concrete state and operands that meet them all. -/

namespace Sys2Proof.Tests

open Sys2Proof Sys2Proof.Machine

/-! ### Ill-formed terms, one for each check of WellFormed.lean -/

theorem test_reference_is_wf : Config.reference.wf = true := by decide
theorem test_reference_is_accepted : Config.reference.accepted = true := by decide
theorem test_wf_refuses_zero_seed : { Config.reference with lfsrSeed := 0 }.wf = false := by decide
theorem test_wf_refuses_zero_reseed : { Config.reference with lfsrReseed := 0 }.wf = false := by decide
theorem test_wf_refuses_crossed_freqs : { Config.reference with minFreqHz := 3001 }.wf = false := by decide
theorem test_wf_refuses_freq_at_rate : { Config.reference with maxFreqHz := 16000 }.wf = false := by decide
theorem test_wf_refuses_sample_rate : { Config.reference with sampleRate := 65536 }.wf = false := by decide
theorem test_wf_refuses_crossed_delays : { Config.reference with burstDelayMin := 513 }.wf = false := by decide
theorem test_wf_refuses_no_attack :
    { Config.reference with attackSamples := 0, attackWave := [] }.wf = false := by decide
theorem test_wf_refuses_no_tail : { Config.reference with tailMaxSamples := 0 }.wf = false := by decide
theorem test_wf_refuses_long_tail : { Config.reference with tailMaxSamples := 65536 }.wf = false := by decide
theorem test_wf_refuses_long_pattern :
    { Config.reference with patternTable := { referencePatternTable with alert := List.replicate 256 (gapStep 1) } }.wf = false := by
  decide +kernel
theorem test_wf_refuses_no_voice : { Config.reference with maxVoices := 0 }.wf = false := by decide
theorem test_wf_refuses_five_voices : { Config.reference with maxVoices := 5 }.wf = false := by decide
theorem test_wf_refuses_noise_shift : { Config.reference with noiseShift := 16 }.wf = false := by decide
theorem test_wf_refuses_volume_reset : { Config.reference with volumeReset := 101 }.wf = false := by decide
theorem test_wf_refuses_short_wave : { Config.reference with attackWave := [0, 1] }.wf = false := by decide
theorem test_wf_refuses_short_sine : { Config.reference with sineTable := sineRow0 }.wf = false := by decide

theorem test_wf_refuses_reserved_opcodes :
    (Instr.reservedD 0).wf = false ∧ (Instr.reservedE 0).wf = false ∧ (Instr.reservedF 0).wf = false := by decide

theorem test_asm_refuses_burst_operands :
    assemble (.triggerBurst 256 0) = none ∧ assemble (.triggerBurst 0 256) = none ∧ assemble (.burst 256) = none := by decide
theorem test_asm_refuses_beep_operands :
    assemble (.beepStart 65536 0 0) = none ∧ assemble (.beepStart 0 65536 0) = none ∧
      assemble (.beepStart 0 0 256) = none := by decide
theorem test_asm_refuses_wide_bytes :
    assemble (.patternStart 256) = none ∧ assemble (.setVolume 256) = none := by decide
theorem test_asm_refuses_range_operands :
    assemble (.lfsrRanged 65536 0) = none ∧ assemble (.lfsrRanged 0 65536) = none := by decide
theorem test_asm_refuses_no_ticks : assemble (.ticks 0) = none := by decide
theorem test_asm_program_refused_by_one_line : assembleAll [.nop, .setVolume 256, .tick] = none := by decide

/-- 44_pattern_sequencer.md R201, each shape and each Double duration broken alone. -/
theorem test_accepted_refuses_gap_single :
    { Config.reference with patternTable := { referencePatternTable with single := [gapStep 50] } }.accepted = false := by decide
theorem test_accepted_refuses_two_tone_error :
    { Config.reference with
      patternTable := { referencePatternTable with error := [toneStep 400 500 255, toneStep 400 1 1] } }.accepted = false := by decide
theorem test_accepted_refuses_gap_alert :
    { Config.reference with patternTable := { referencePatternTable with alert := [gapStep 30] } }.accepted = false := by decide
theorem test_accepted_refuses_one_gap_double :
    { Config.reference with patternTable := { referencePatternTable with double := [gapStep 10] } }.accepted = false := by decide
theorem test_tone_gap_tone_needs_each_part :
    isToneGapTone [toneStep 9 149 1, gapStep 150, toneStep 9 150 1] = false ∧
      isToneGapTone [toneStep 9 150 1, gapStep 151, toneStep 9 150 1] = false ∧
      isToneGapTone [toneStep 9 150 1, gapStep 150, toneStep 9 0 1] = false ∧
      isToneGapTone [gapStep 150, gapStep 150, toneStep 9 150 1] = false ∧
      isToneGapTone [toneStep 9 150 1, toneStep 9 150 1, toneStep 9 150 1] = false ∧
      isToneGapTone [toneStep 9 150 1, gapStep 150, gapStep 150] = false ∧
      isToneGapTone [toneStep 9 150 1, gapStep 150, toneStep 9 150 1] = true := by decide
/-- R205: a table of length 0, and a step of duration 0, are allowed. -/
theorem test_accepted_allows_empty_and_zero :
    { Config.reference with
      patternTable := { single := [], double := [], error := [toneStep 400 0 255], alert := [] } }.accepted = true := by decide

/-! ### Decoding: words written out from the formats of 30_encoding.md R82-R87 -/

theorem test_decode_nop : decode 0b000000000000000000000000000000000000000000000000#48 = .ok .nop := by decide
theorem test_decode_init : decode 0b000100000000000000000000000000000000000000000000#48 = .ok .init := by decide
theorem test_decode_tick : decode 0b001000000000000000000000000000000000000000000000#48 = .ok .tick := by decide
theorem test_decode_trigger_click :
    decode 0b001100000000000000000000000000000000000000000000#48 = .ok .triggerClick := by decide
/-- MIN = 1, MAX = 254. -/
theorem test_decode_trigger_burst :
    decode 0b010000000000000000000000000000000000000111111110#48 = .ok (.triggerBurst 1 254) := by decide
/-- FREQ = 0x8001, DUR = 0x4002, LVL = 0x81. -/
theorem test_decode_beep_start :
    decode 0b010100001000000000000001010000000000001010000001#48 = .ok (.beepStart 0x8001 0x4002 0x81) := by decide
theorem test_decode_stop_all : decode 0b011000000000000000000000000000000000000000000000#48 = .ok .stopAll := by decide
theorem test_decode_pattern_start :
    decode 0b011100000000000000000000000000000000000010000011#48 = .ok (.patternStart 0x83) := by decide
theorem test_decode_set_volume :
    decode 0b100000000000000000000000000000000000000010010110#48 = .ok (.setVolume 150) := by decide
theorem test_decode_get_volume : decode 0b100100000000000000000000000000000000000000000000#48 = .ok .getVolume := by decide
theorem test_decode_get_status : decode 0b101000000000000000000000000000000000000000000000#48 = .ok .getStatus := by decide
theorem test_decode_lfsr_next : decode 0b101100000000000000000000000000000000000000000000#48 = .ok .lfsrNext := by decide
/-- RMIN = 0x8001, RMAX = 0x4002. -/
theorem test_decode_lfsr_ranged :
    decode 0b110000000000000010000000000000010100000000000010#48 = .ok (.lfsrRanged 0x8001 0x4002) := by decide
theorem test_decode_reserved_d :
    decode 0b110110000000000000000000000000000000000000000001#48 = .ok (.reservedD 0x80000000001) := by decide
theorem test_decode_reserved_e :
    decode 0b111010000000000000000000000000000000000000000001#48 = .ok (.reservedE 0x80000000001) := by decide
theorem test_decode_reserved_f :
    decode 0b111110000000000000000000000000000000000000000001#48 = .ok (.reservedF 0x80000000001) := by decide

/-- 95_test_vectors.md section 9: bit 16 of TRIGGER_BURST and bit 40 of BEEP_START are reserved. -/
theorem test_decode_rejects_reserved_bits :
    decode 0x400000010000#48 = .error (.reservedBits "TRIGGER_BURST") ∧
      decode 0x510000000000#48 = .error (.reservedBits "BEEP_START") := ⟨rfl, rfl⟩
/-- The neighbours of the other fields: bit 32 of LFSR_RANGED, bit 8 of PATTERN_START and SET_VOLUME. -/
theorem test_decode_rejects_reserved_neighbours :
    decode 0xC00100000000#48 = .error (.reservedBits "LFSR_RANGED") ∧
      decode 0x700000000100#48 = .error (.reservedBits "PATTERN_START") ∧
      decode 0x800000000100#48 = .error (.reservedBits "SET_VOLUME") := ⟨rfl, rfl, rfl⟩
theorem test_decode_bytes_rejects_a_short_word : decodeBytes [0x20, 0, 0, 0, 0] = .error (.shortWord 5) := by decide
/-- 20_memory.md R66: the most significant byte is first. -/
theorem test_decode_bytes_first_byte_is_the_opcode : decodeBytes [0x80, 0, 0, 0, 0, 37, 0xFF] = .ok (.setVolume 37, [0xFF]) := by decide
theorem test_decode_table_word : decodeTableWord 48 0x400000000305 = some (.triggerBurst 3 5) := by decide
theorem test_decode_table_word_refuses : decodeTableWord 48 0x400000010000 = none := by decide

/-- 95_test_vectors.md section 10, P1, P3, P4: the words of the programs. -/
theorem test_assemble_program_words :
    assembleAll [.init, .beepStart 1000 200 255, .ticks 2, .burst 3, .lfsrRanged 32 512, .patternNamed .double, .beepOff] =
      some [0x100000000000, 0x5003E800C8FF, 0x200000000000, 0x200000000000, 0x400000000303, 0xC00000200200, 0x700000000001,
        0x500000000000] := by decide

/-- 95_test_vectors.md section 10, P1 and P3, as text. -/
theorem test_assemble_text :
    assembleText "INIT                      ; 100000000000\nBEEP_START 1000, 0xC8, 255 ; a tone\n\nBURST 3\nPATTERN_START DOUBLE".toList =
      some [0x100000000000, 0x5003E800C8FF, 0x400000000303, 0x700000000001] := by decide +kernel
/-- R95: a missing operand, an operand too many, an unknown mnemonic, a bad digit. -/
theorem test_assemble_text_refuses :
    assembleText "BURST".toList = none ∧ assembleText "NOP 1".toList = none ∧ assembleText "FOO 1".toList = none ∧
      assembleText "SET_VOLUME 1A".toList = none ∧ assembleText "SET_VOLUME 0x".toList = none ∧
      assembleText "SET_VOLUME 256".toList = none := by decide +kernel

/-! ### The reset state -/

/-- 10_state.md R48 with the reference parameters. -/
theorem test_reset_values :
    State.reset.lfsr = 0xACE1 ∧ State.reset.volume = 100 ∧ State.reset.ill = false ∧ State.reset.voices.length = 4 := by decide
/-- 95_test_vectors.md section 1.1. -/
theorem test_reset_attack_env :
    State.reset.attackEnv =
      [65535, 57343, 50175, 43903, 38415, 33613, 29411, 25734, 22517, 19702, 17239, 15084, 13198, 11548, 10104, 8841] := by decide
/-- 95_test_vectors.md section 1.2: the table's ends and its top. -/
theorem test_sine_table_entries :
    referenceSineTable.length = 256 ∧ referenceSineTable[64]? = some (BitVec.ofInt 16 32767) ∧
      referenceSineTable[255]? = some (BitVec.ofInt 16 (-804)) := by decide +kernel

/-! ### One step each: the word placed where the step takes it, from small states -/

/-- The state after one step on the word `w`, if there is one. -/
def afterWord (w : Nat) (s : State) : Option State := nextState? (step (s.withFetchWord 48 w))

/-- What the step responds. -/
def responseTo (w : Nat) (s : State) : Option Nat := (afterWord w s).map (fun t => t.resp.toNat)

/-- Why an outcome stops, if it does. -/
def stopOf : Host.Outcome State Fault Refusal → Option (Fault ⊕ Refusal)
  | .next _ => none
  | .fault f => some (.inl f)
  | .refused r => some (.inr r)

/-- Slot 0 in the attack at sample `pos`. -/
def clicking (pos : U16) : State :=
  State.reset.withVoices [{ active := true, pos := pos, env := 0xFFFF, ph := 0 }, Voice.zero, Voice.zero, Voice.zero]

/-- A 1000 Hz tone of level 255 with 16 samples left. -/
def toning : State := State.reset.withOsc { phase := 0, step := 0x10000000, srem := 16, level := 255 }

/-- A burst with `rem` clicks left and `delay` samples to the next. -/
def bursting (rem : U8) (delay : U16) : State := State.reset.withBurst { active := true, rem := rem, delay := delay }

/-- Pattern `tid` with step `idx` next, `srem` samples from now. -/
def playing (tid : BitVec 2) (idx : U8) (srem : U32) : State :=
  State.reset.withPattern { tvalid := true, tid := tid, idx := idx, srem := srem, active := true }

/-- 95_test_vectors.md section 9. -/
theorem test_nop : responseTo 0x000000000000 { State.reset with resp := 7 } = some 0 := by decide
/-- R241: ILL, VOLUME and LFSR return to their reset values. -/
theorem test_init :
    (afterWord 0x100000000000 { State.reset with ill := true, volume := 37, lfsr := 1 }).map
      (fun t => (t.ill, t.volume.toNat, t.lfsr.toNat)) = some (false, 100, 0xACE1) := by decide
/-- Section 8, k = 6: -4488 - 32640 saturates to -32768 = 0x8000. -/
theorem test_tick_saturates_and_attenuates :
    responseTo 0x200000000000 ((clicking 6).withOsc { phase := 0, step := 0x10000000, srem := 10, level := 255 }) =
      some 0x8000 := by decide
/-- Section 4.2, row 0: o[16] = 4244, two draws, PH = 1802, ENV = 63487. -/
theorem test_tick_tail_sample :
    (afterWord 0x200000000000 (clicking 16)).map (fun t => (t.resp.toNat, t.lfsr.toNat, t.voices.head?)) =
      some (4244, 0xAB38, some { active := true, pos := 17, env := 63487, ph := 1802 }) := by decide
/-- Section 4.1, R132: slot 0 armed. -/
theorem test_trigger_click :
    (afterWord 0x300000000000 (clicking 16)).map (fun t => t.voices) =
      some [{ active := true, pos := 0, env := 0xFFFF, ph := 0 }, Voice.zero, Voice.zero, Voice.zero] := by decide
/-- Section 5.1: TRIGGER_BURST 1, 255. -/
theorem test_trigger_burst :
    (afterWord 0x4000000001FF State.reset).map (fun t => (t.burst, t.lfsr.toNat)) =
      some ({ active := true, rem := 199, delay := 93 }, 0xAB38) := by decide
/-- Section 5.1: (0, 0) is a no-op, even with a burst armed. -/
theorem test_trigger_burst_zero :
    (afterWord 0x400000000000 (bursting 3 93)).map (fun t => (t.burst, t.lfsr.toNat)) =
      some ({ active := true, rem := 3, delay := 93 }, 0xACE1) := by decide
/-- Section 6.1: BEEP_START 1234, 1, 1 from PHASE 0x10000000. -/
theorem test_beep_start :
    (afterWord 0x5004D2000101 (State.reset.withOsc { phase := 0x10000000, step := 5, srem := 1, level := 9 })).map (fun t => t.osc) =
      some { phase := 0x10000000, step := 331249353, srem := 16, level := 1 } := by decide
/-- Section 6.1: BEEP_START 1000, 10, 0 silences. -/
theorem test_beep_start_level_zero :
    (afterWord 0x5003E8000A00 toning).map (fun t => t.osc) = some { phase := 0, step := 0, srem := 0, level := 0 } := by decide
/-- Section 6.4. -/
theorem test_stop_all :
    (afterWord 0x600000000000 ((playing 0 1 700).withOsc { phase := 4, step := 5, srem := 700, level := 255 })).map
      (fun t => (t.osc, t.pattern)) = some (Osc.zero, Pattern.zero) := by decide
/-- Section 7: PATTERN_START 9 plays table 0. -/
theorem test_pattern_start_invalid_id :
    (afterWord 0x700000000009 (playing 3 1 4)).map (fun t => t.pattern) =
      some { tvalid := true, tid := 0, idx := 0, srem := 0, active := true } := by decide
/-- Section 7: the first TICK of Double. -/
theorem test_pattern_first_tick :
    (afterWord 0x200000000000 (playing 1 0 0)).map
      (fun t => (t.pattern.srem.toNat, t.pattern.idx.toNat, t.osc.srem.toNat, t.osc.step.toNat, t.resp.toInt)) =
      some (2399, 1, 2399, 0x20000000, -32640) := by decide
/-- Section 9: SET_VOLUME 150. -/
theorem test_set_volume : (afterWord 0x800000000096 State.reset).map (fun t => t.volume.toNat) = some 100 := by decide
/-- Section 9: GET_VOLUME after SET_VOLUME 37. -/
theorem test_get_volume : responseTo 0x900000000000 (State.reset.withVolume 37) = some 37 := by decide
/-- R40: all five flags. -/
theorem test_get_status_all_flags :
    responseTo 0xA00000000000
      { (clicking 3) with ill := true, burst := (bursting 3 9).burst, pattern := (playing 1 0 0).pattern, osc := toning.osc } =
      some 0x1F := by decide
/-- Section 9: a tone alone. -/
theorem test_get_status_tone : responseTo 0xA00000000000 toning = some 0x0008 := by decide
/-- Section 2.1, FIB. -/
theorem test_lfsr_next : responseTo 0xB00000000000 State.reset = some 0x5670 := by decide
/-- Section 2.1, GAL. -/
theorem test_lfsr_next_gal : responseTo 0xB00000000000 (State.resetWith { Config.reference with lfsrForm := .gal }) = some 0xE270 := by
  decide
/-- Section 2.2: swapped bounds. -/
theorem test_lfsr_ranged_swapped : responseTo 0xC00002000020 { State.reset with lfsr := 0x2ACE } = some 220 := by decide
/-- Section 2.2: the span of 65536. -/
theorem test_lfsr_ranged_full : responseTo 0xC0000000FFFF { State.reset with lfsr := 0x1567 } = some 35507 := by decide
/-- Section 9, R245: an illegal opcode. -/
theorem test_reserved_d :
    (afterWord 0xD00000000000 { State.reset with resp := 9 }).map (fun t => (t.ill, t.resp.toNat)) = some (true, 0) := by decide
theorem test_reserved_e :
    (afterWord 0xE00000000000 { State.reset with resp := 9 }).map (fun t => (t.ill, t.resp.toNat)) = some (true, 0) := by decide
theorem test_reserved_f :
    (afterWord 0xFFFFFFFFFFFF { State.reset with resp := 9 }).map (fun t => (t.ill, t.resp.toNat)) = some (true, 0) := by decide
/-- Section 9: TRIGGER_BURST with bit 16 set: no draw, no burst. -/
theorem test_reserved_bit :
    (afterWord 0x400000010000 State.reset).map (fun t => (t.ill, t.burst, t.lfsr.toNat)) = some (true, Burst.zero, 0xACE1) := by decide

/-- R161: the last fire ends the burst without a draw, and the click's sample 0 is this TICK's. -/
theorem test_burst_last_fire :
    (afterWord 0x200000000000 (bursting 1 1)).map (fun t => (t.burst, t.lfsr.toNat, t.voices.head?)) =
      some (Burst.zero, 0xACE1, some { active := true, pos := 1, env := 0xFFFF, ph := 0 }) := by decide
/-- R141: the call that finds ENV = 0 deactivates and draws nothing. -/
theorem test_voice_deactivates :
    (afterWord 0x200000000000
      (State.reset.withVoices [{ active := true, pos := 275, env := 0, ph := 7639 }, Voice.zero, Voice.zero, Voice.zero])).map
      (fun t => (t.voices.head?, t.lfsr.toNat, t.resp.toNat)) =
      some (some { active := false, pos := 275, env := 0, ph := 7639 }, 0xACE1, 0) := by decide
/-- Section 4.3: an increment clamped at 0 leaves PH. -/
theorem test_jitter_clamps :
    (afterWord 0x200000000000 ({ (clicking 16) with config := { Config.reference with tailBaseInc := 10, jitterMask := 0 } })).map
      (fun t => t.voices.map (fun v => v.ph.toNat)) = some [0, 0, 0, 0] := by decide
/-- R71: the control word goes before the pending TICKs and behind the control words. -/
theorem test_control_before_ticks :
    ({ State.reset with pending := [0x300000000000, 0x200000000000, 0x200000000000] }.acceptControl 0x600000000000).pending =
      [0x300000000000, 0x600000000000, 0x200000000000, 0x200000000000] := by decide
/-- 20_memory.md R65, log 10: a table of the wrong length, which no run reaches, stops by name. -/
theorem test_table_index_faults :
    stopOf (exec .tick { (clicking 2) with attackEnv := [0xFFFF] }) = some (.inl (.tableIndex .attackEnv 2)) := by decide
/-- R201 through the step: a Double of one gap. -/
theorem test_step_refuses_shape :
    stopOf (step (State.resetWith { Config.reference with patternTable := { referencePatternTable with double := [gapStep 10] } })) =
      some (.inr .configOutsideSpec) := by decide
/-- R7. -/
theorem test_step_refuses_config :
    stopOf (step (State.resetWith { Config.reference with lfsrSeed := 0 })) = some (.inr .configOutsideSpec) := by decide

/-! ### Witnesses: for every statement with hypotheses, inputs that meet all of them; one for each clause, at its boundary -/

/-- An outcome that goes on is a next state. -/
theorem next_of_isSome {o : Host.Outcome State Fault Refusal} (h : (nextState? o).isSome = true) : ∃ t, o = .next t := by
  cases o with
  | next t => exact ⟨t, rfl⟩
  | fault _ => exact Bool.noConfusion h
  | refused _ => exact Bool.noConfusion h

theorem toning_inv : toning.Inv := inv_withOsc (resetWith_inv test_reference_is_wf) _ (fun _ => by decide)
theorem clicking_inv : (clicking 16).Inv :=
  inv_withVoices (resetWith_inv test_reference_is_wf) _ (by decide) (by decide +kernel) (by decide +kernel)
theorem bursting_inv (rem : U8) (delay : U16) (h : 1 ≤ rem.toNat) : (bursting rem delay).Inv :=
  inv_withBurst (resetWith_inv test_reference_is_wf) _ (fun _ => h) (fun h0 => Bool.noConfusion h0)
theorem playing_inv (tid : BitVec 2) (idx : U8) (srem : U32)
    (h : idx.toNat ≤ (patternSteps Config.reference tid).length) : (playing tid idx srem).Inv :=
  inv_withPattern (resetWith_inv test_reference_is_wf) _ (fun _ => rfl) (fun _ => h)

theorem witness_DecodedWordHasOneSpelling : decode 0xFFFFFFFFFFFF#48 = .ok (.reservedF 0xFFFFFFFFFFF) := by rfl

/-- The reserved opcodes' ends, and the lowest and the highest reserved bit of each format. -/
theorem witness_IllegalWordsOnlyRaiseIllegal :
    State.reset.config.accepted = true ∧ (State.reset.withPending [0x000000000001]).pending = 0x000000000001 :: [] ∧
      [0x000000000001, 0x080000000000, 0xB00000000001, 0xB80000000000, 0x400000010000, 0x480000000000, 0x510000000000,
        0x580000000000, 0x700000000100, 0x780000000000, 0x800000000100, 0x880000000000, 0xC00100000000, 0xC80000000000].all
        (fun w : Word48 => decide ((opField w).toNat ≤ 0xC) && decide (w &&& reservedBitsOf (opField w).toNat ≠ 0)) = true ∧
      [0xD00000000000, 0xFFFFFFFFFFFF].all (fun w : Word48 => decide (0xD ≤ (opField w).toNat)) = true :=
  ⟨test_reference_is_accepted, rfl, by decide, by decide⟩

theorem witness_PseudoInstructionsExpand : 1 ≤ 1 ∧ assemble (.ticks 1) = some [0x200000000000#48] := by decide

theorem witness_TransportIsMostSignificantByteFirst : (0 < 6 ∧ 5 < 6) ∧ ([0x20, 0, 0, 0, 0] : List Byte).length < 6 := by decide

theorem witness_LfsrStepFollowsItsForm : (0 < 15 ∧ 14 < 15) ∧ (1 : U16).toNat % 2 = 1 ∧ (2 : U16).toNat % 2 ≠ 1 := by decide

theorem witness_LfsrHasFullPeriod : (0x8000 : U16) ≠ 0 ∧ (0 < 1 ∧ 1 < 65535) ∧ (0 < 65534 ∧ 65534 < 65535) := by decide

theorem witness_DrawsAreNonzeroAndChange : (1 : U16) ≠ 0 := by decide

/-- A step that is not 0, and one that is, from the register value 0. -/
theorem witness_LfsrNextRespondsTheNewRegister :
    lfsrStep .fib 0xACE1 ≠ 0 ∧ lfsrStep .gal 0 = 0 ∧ Config.reference.lfsrReseed ≠ 0 := by decide

theorem witness_LfsrRangedRespondsInRange : (0 : U16) = 0 ∧ (65535 : U16) = 65535 := by decide

theorem witness_AttackEnvelopeDecaysByMultiplication :
    1 ≤ Config.reference.attackSamples ∧ (attackEnvTable Config.reference)[14]? = some 10104 ∧
      (attackEnvTable Config.reference)[14 + 1]? = some 8841 := by decide

theorem witness_TriggerClickArmsSlotZero : State.reset.voices ≠ [] ∧ 0 < 3 ∧ 3 < State.reset.voices.length := by decide

/-- The last attack sample, index 15. -/
theorem witness_AttackSampleScalesTheRecordedWave :
    Voice.active { active := true, pos := 15, env := 5, ph := 7 } = true ∧ (15 : U16).toNat < Config.reference.tailMaxSamples ∧
      (15 : U16).toNat < Config.reference.attackSamples ∧ Config.reference.attackWave[(15 : U16).toNat]? = some 0 ∧
      State.reset.attackEnv[(15 : U16).toNat]? = some 8841 := by decide

/-- 95_test_vectors.md section 4.2, row 0: the first tail sample, index 16. -/
theorem witness_TailSampleFollowsTheRules :
    (16 : U16).toNat < Config.reference.tailMaxSamples ∧ Config.reference.attackSamples ≤ (16 : U16).toNat ∧ (65535 : U16) ≠ 0 ∧
      (0x5670 : U16) = nextDraw Config.reference 0xACE1 ∧ (0xAB38 : U16) = nextDraw Config.reference 0x5670 ∧
      ((1802 : Nat) : Int) = max 0 (((1802 : U16).toNat : Int) + ((((0x5670 : U16) &&& 0x1F).toNat : Int) - ((16 : U16).toNat : Int))) ∧
      (1802 : U16).toNat = ((0 : U16).toNat + 1802) % 65536 ∧
      Config.reference.sineTable[(1802 : U16).toNat / 256]? = some 5602 ∧
      (5601 : Int) = (5602 : U16).toInt * ((65535 : U16).toNat : Int) / 65536 ∧
      (-1357 : Int) = (0xAB38 : U16).toInt / (2 : Int) ^ 4 * ((65535 : U16).toNat : Int) / 65536 := by decide

/-- Inactive; POS at TAIL_MAX_SAMPLES; ENV 0 at the first tail sample. -/
theorem witness_VoiceDeactivatesOnTheNextCall :
    Voice.zero.active = false ∧ Config.reference.tailMaxSamples ≤ (800 : U16).toNat ∧
      ((16 : U16).toNat < Config.reference.tailMaxSamples ∧ Config.reference.attackSamples ≤ (16 : U16).toNat) := by decide

/-- The first tail sample of section 4.2 again, as a call that keeps its slot active. -/
theorem witness_TailEnvelopeStrictlyDecreases :
    voiceAdvance Config.reference State.reset.attackEnv 0xACE1 { active := true, pos := 16, env := 65535, ph := 0 } =
      .ok { out := 4244, voice := { active := true, pos := 17, env := 63487, ph := 1802 }, lfsr := 0xAB38 } ∧
      Config.reference.attackSamples ≤ (16 : U16).toNat := by
  refine ⟨?_, by decide⟩
  rfl

theorem witness_VoiceOutputIsInRange :
    voiceAdvance Config.reference State.reset.attackEnv 1 { active := true, pos := 1, env := 9, ph := 8 } =
      .ok { out := 10499, voice := { active := true, pos := 2, env := 9, ph := 8 }, lfsr := 1 } := by rfl

theorem witness_PoolIsMonophonic :
    (∀ u ∈ [Voice.zero, Voice.zero], u.active = false) ∧
      poolAdvance Config.reference State.reset.attackEnv 1 ({ active := true, pos := 1, env := 9, ph := 8 } :: [Voice.zero, Voice.zero]) =
        .ok { clicks := 10499, voices := [{ active := true, pos := 2, env := 9, ph := 8 }, Voice.zero, Voice.zero], lfsr := 1 } := by
  refine ⟨by decide, ?_⟩
  rfl

/-- Two slots in the attack at once, as no run leaves them. -/
theorem witness_ClickSumIsBounded :
    poolAdvance Config.reference State.reset.attackEnv 1
      [{ active := true, pos := 1, env := 9, ph := 8 }, { active := true, pos := 3, env := 9, ph := 8 }] =
      .ok { clicks := 32449
            voices := [{ active := true, pos := 2, env := 9, ph := 8 }, { active := true, pos := 4, env := 9, ph := 8 }]
            lfsr := 1 } := by rfl

theorem witness_ClickEndsWithinItsTail :
    toning.Inv ∧ toning.burst.active = false ∧ toning.config.tailMaxSamples + 1 ≤ 801 := ⟨toning_inv, by decide, by decide⟩

theorem witness_TriggerBurstArmsADrawnBurst :
    ((0 : U8) = 0) ∧ ¬ ((0 : U8) = 0 ∧ (3 : U8) = 0) ∧ (0x5670 : U16) = nextDraw Config.reference 0xACE1 ∧
      (0xAB38 : U16) = nextDraw Config.reference 0x5670 ∧ 1 = max (0 : U8).toNat 1 ∧ 3 = max (3 : U8).toNat 1 ∧
      32 = min Config.reference.burstDelayMin.toNat Config.reference.burstDelayMax.toNat ∧
      512 = max Config.reference.burstDelayMin.toNat Config.reference.burstDelayMax.toNat := by decide

/-- One state for each clause; DELAY at 2, 1 and 0, REM at 0, 1 and 2. -/
theorem witness_BurstAdvanceCountsDownAndFires :
    State.reset.burst.active = false ∧
      ((bursting 3 2).burst.active = true ∧ 2 ≤ (bursting 3 2).burst.delay.toNat) ∧
      ((bursting 0 0).burst.active = true ∧ (bursting 0 0).burst.delay.toNat ≤ 1 ∧ (bursting 0 0).burst.rem = 0) ∧
      ((bursting 1 1).burst.active = true ∧ (bursting 1 1).burst.delay.toNat ≤ 1 ∧ (bursting 1 1).burst.rem = 1) ∧
      ((bursting 2 0).burst.active = true ∧ (bursting 2 0).burst.delay.toNat ≤ 1 ∧ 2 ≤ (bursting 2 0).burst.rem.toNat) := by
  decide

theorem witness_FirstFireComesAfterTheDelay :
    (bursting 1 0).burst.active = true ∧ 1 ≤ (bursting 1 0).burst.rem.toNat ∧ 0 < max (bursting 1 0).burst.delay.toNat 1 := by
  decide

theorem witness_BurstFiresExactlyItsCount :
    (bursting 3 93).Inv ∧ (bursting 3 93).burst.active = true ∧ 1 ≤ (bursting 3 93).burst.rem.toNat ∧
      65535 * (bursting 3 93).burst.rem.toNat ≤ 196605 := ⟨bursting_inv 3 93 (by decide), by decide⟩

/-- DUR = 0, LVL = 0, and the smallest operands that sound. -/
theorem witness_BeepStartStartsOrSilences :
    State.reset.config.wf = true ∧ ((0 : U16) = 0 ∨ (9 : U8) = 0) ∧ ((9 : U16) = 0 ∨ (0 : U8) = 0) ∧ ((1 : U16) ≠ 0 ∧ (1 : U8) ≠ 0) ∧
      State.reset.config.beepPhaseReset = false := by decide

/-- The phase on both sides of 2^31. -/
theorem witness_OscillatorAdvanceIsASquareWave :
    Osc.zero.srem = 0 ∧ toning.osc.srem ≠ 0 ∧ 1 ≤ toning.osc.level.toNat ∧ 2 ^ 31 ≤ (0x80000000 : U32).toNat ∧
      (0x7FFFFFFF : U32).toNat < 2 ^ 31 := by decide

theorem witness_ToneSoundsForItsSamples :
    (∀ v ∈ toning.voices, v.active = false) ∧ toning.burst.active = false ∧ toning.pattern.active = false ∧
      1 ≤ toning.osc.level.toNat := by decide

/-- Inactive; counting down; past the last step; a tone step and a gap step due. -/
theorem witness_PatternAdvanceLoadsSteps :
    State.reset.config.wf = true ∧ State.reset.pattern.active = false ∧
      ((playing 1 1 7).pattern.active = true ∧ (playing 1 1 7).pattern.srem ≠ 0) ∧
      ((playing 1 3 0).pattern.srem = 0 ∧
        (patternSteps (playing 1 3 0).config (playing 1 3 0).pattern.tid).length ≤ (playing 1 3 0).pattern.idx.toNat) ∧
      ((playing 1 2 0).pattern.srem = 0 ∧
        (patternSteps (playing 1 2 0).config (playing 1 2 0).pattern.tid)[(playing 1 2 0).pattern.idx.toNat]? =
          some (toneStep 2000 150 255)) ∧
      (patternSteps (playing 1 1 0).config (playing 1 1 0).pattern.tid)[(playing 1 1 0).pattern.idx.toNat]? =
        some (gapStep 150) := by decide

theorem witness_PatternAdvanceLoadsSteps_next :
    ∃ u, exec (.beepStart (toneStep 2000 150 255).freqHz (toneStep 2000 150 255).durationMs (toneStep 2000 150 255).level)
      (playing 1 2 0) = .next u := next_of_isSome (by decide)

theorem witness_PatternStepsAreTimedBySamples :
    (playing 1 0 0).config.wf = true ∧ (playing 1 0 0).pattern.active = true ∧ (playing 1 0 0).pattern.idx = 0 ∧
      (playing 1 0 0).pattern.srem = 0 ∧
      [toneStep 2000 150 255, gapStep 150, toneStep 2000 150 255] =
        patternSteps (playing 1 0 0).config (playing 1 0 0).pattern.tid ∧
      (∀ st ∈ [toneStep 2000 150 255, gapStep 150, toneStep 2000 150 255], st.durationMs ≠ 0) ∧
      2 < [toneStep 2000 150 255, gapStep 150, toneStep 2000 150 255].length := by decide

theorem witness_TickCompletes :
    (clicking 16).config.wf = true ∧ (clicking 16).attackEnv.length = (clicking 16).config.attackSamples := by decide

/-- A click under a tone, with attenuation: section 8, k = 6. -/
theorem witness_TickMixesAndSaturates :
    poolAdvance (clicking 6).config (clicking 6).attackEnv (clicking 6).lfsr (clicking 6).voices =
      .ok { clicks := -8976
            voices := [{ active := true, pos := 7, env := 0xFFFF, ph := 0 }, Voice.zero, Voice.zero, Voice.zero]
            lfsr := 0xACE1 } ∧
      (-4488 : Int) = (if Config.reference.attenEnable = true ∧ toning.osc.srem ≠ 0 then
        (-8976) * (Config.reference.clickAtten.toNat : Int) / 65536 else -8976) := by
  refine ⟨?_, by decide⟩
  rfl

theorem witness_QuietTickIsSilent : State.reset.Quiet :=
  { voices_off := by decide, burst_off := by decide, osc_off := by decide, pattern_off := by decide }

theorem witness_TickDrawsAtMostTwice : (clicking 16).Inv ∧ ∃ t, exec .tick (clicking 16) = .next t :=
  ⟨clicking_inv, next_of_isSome (by decide)⟩

/-- DELAY at both values that fire. -/
theorem witness_FireSoundsInItsOwnTick :
    ((bursting 3 1).Inv ∧ (bursting 1 0).Inv) ∧ ((bursting 3 1).burst.delay.toNat ≤ 1 ∧ (bursting 1 0).burst.delay.toNat ≤ 1) ∧
      (bursting 3 1).burst.active = true ∧ (bursting 3 1).osc.srem = 0 ∧ (bursting 3 1).pattern.active = false ∧
      (bursting 3 1).config.attackWave[0]? = some 0 ∧ (bursting 3 1).attackEnv[0]? = some 0xFFFF := by
  refine ⟨⟨bursting_inv 3 1 (by decide), bursting_inv 1 0 (by decide)⟩, ?_⟩
  decide

/-- The first and the last tone step of Double. -/
theorem witness_LoadedToneSoundsInItsOwnTick :
    ((playing 1 0 0).Inv ∧ (playing 1 2 0).Inv) ∧ (playing 1 2 0).burst.active = false ∧
      (∀ v ∈ (playing 1 2 0).voices, v.active = false) ∧ (playing 1 2 0).pattern.active = true ∧
      (playing 1 2 0).pattern.srem = 0 ∧
      (patternSteps (playing 1 2 0).config (playing 1 2 0).pattern.tid)[(playing 1 2 0).pattern.idx.toNat]? =
        some (toneStep 2000 150 255) ∧
      (toneStep 2000 150 255).isTone = true ∧ (toneStep 2000 150 255).durationMs ≠ 0 ∧ (toneStep 2000 150 255).level ≠ 0 := by
  refine ⟨⟨playing_inv 1 0 0 (by decide), playing_inv 1 2 0 (by decide +kernel)⟩, ?_⟩
  decide

theorem witness_InitResetsEveryField : State.reset.config.volumeReset ≤ 100 := by decide

theorem witness_GetStatusRespondsTheFlags : 5 ≤ 5 ∧ 5 ≤ 15 := by decide

/-- An illegal word, and a legal one. -/
theorem witness_IllegalFlagIsSticky :
    { State.reset with pending := [0xD00000000000#48] }.pending = 0xD00000000000#48 :: [] ∧
      (∃ t, step { State.reset with pending := [0xD00000000000#48] } = .next t) ∧
      ∃ t, step { State.reset with pending := [0x100000000000#48], ill := true } = .next t :=
  ⟨rfl, next_of_isSome (by decide), next_of_isSome (by decide +kernel)⟩

theorem witness_StepRunsTheDecodedInstr :
    State.reset.config.accepted = true ∧ { State.reset with pending := [0x300000000000#48] }.pending = 0x300000000000#48 :: [] ∧
      decode 0x300000000000#48 = .ok .triggerClick := ⟨test_reference_is_accepted, rfl, by rfl⟩

theorem witness_IdleStepHoldsAllState : State.reset.config.accepted = true ∧ State.reset.pending = [] :=
  ⟨test_reference_is_accepted, rfl⟩

/-- SAMPLE_RATE just above its range; a Single and a Double that R201 does not allow. -/
theorem witness_ConfigurationOutsideTheSpecIsRefused :
    ¬ (State.resetWith { Config.reference with sampleRate := 65536 }).config.sampleRate ≤ 65535 ∧
      patternSteps { Config.reference with patternTable := { referencePatternTable with single := [gapStep 1] } } 0 = [gapStep 1] ∧
      (gapStep 1).isTone = false ∧
      patternSteps { Config.reference with patternTable := { referencePatternTable with double := [gapStep 10] } } 1 = [gapStep 10] := by
  decide

theorem witness_PendingWordsRunInOrder :
    State.reset.config.accepted = true ∧
      { State.reset with pending := [0x300000000000#48, 0x200000000000#48, 0xD00000000000#48] }.pending =
        [Instr.triggerClick, Instr.tick].map encode ++ [0xD00000000000#48] := by decide

theorem witness_ControlWordsGoBeforePendingTicks :
    (∀ x ∈ [0x300000000000#48], x ≠ 0x200000000000#48) ∧
      (State.reset.withPending [0x300000000000#48, 0x200000000000#48]).pending =
        [0x300000000000#48] ++ List.replicate 1 0x200000000000#48 := by
  refine ⟨?_, rfl⟩
  intro x hx
  rw [List.mem_singleton.1 hx]
  decide

theorem witness_StepsKeepConfigurationAndOrder : ∃ t, step { State.reset with pending := [0x200000000000#48] } = .next t :=
  next_of_isSome (by decide)

theorem witness_OnlyNamedCommandsWriteEachField : ∃ t, exec (.triggerBurst 0 1) State.reset = .next t :=
  next_of_isSome (by decide)

theorem witness_IdempotentCommandsRepeat : ∃ t, exec (.beepStart 1000 200 255) toning = .next t := next_of_isSome (by decide)

theorem witness_VolumeIsAdvisory : Instr.tick ≠ .getVolume ∧ ∃ t, exec .tick (clicking 16) = .next t :=
  ⟨by decide, next_of_isSome (by decide)⟩

theorem witness_StepKeepsTheInvariant :
    ((clicking 16).placeNext 0x200000000000#48).Inv ∧ ∃ t, step ((clicking 16).placeNext 0x200000000000#48) = .next t :=
  ⟨inv_withPending clicking_inv _, next_of_isSome (by decide)⟩

theorem witness_NoInterleavingStopsTheEngine : (bursting 255 0).Inv ∧ (bursting 255 0).config.accepted = true :=
  ⟨bursting_inv 255 0 (by decide), test_reference_is_accepted⟩

end Sys2Proof.Tests
end

section
/-! PROOFS. Scope (00_scope.md): what is refused (R7), and that the pending words run in their order (R13). -/

/-! ### The encoder's words decode to their instructions (R88) -/

namespace Sys2Proof

open Laws

theorem strict_of_toNat_eq_zero {n : Nat} {r : BitVec n} {m : String} {i : Instr} (h : r.toNat = 0) : strict r m i = .ok i :=
  (strict_ok_iff r m i i).2 ⟨h, rfl⟩

/-- A field of a word is the operand that has its number. -/
theorem field_eq {w lo n : Nat} {v : BitVec w} {x : BitVec n} (h : v.toNat / 2 ^ lo % 2 ^ n = x.toNat) :
    v.extractLsb' lo n = x :=
  BitVec.eq_of_toNat_eq ((toNat_field v lo n).trans h)

theorem decode_encode_triggerBurst (min max : U8) :
    decode (encode (.triggerBurst min max)) = .ok (.triggerBurst min max) := by
  have hw : (encode (.triggerBurst min max)).toNat = 4 * 2 ^ 44 + (min.toNat * 2 ^ 8 + max.toNat) :=
    Payload.triggerBurst min max
  have hmin : (encode (.triggerBurst min max)).extractLsb' 8 8 = min := field_eq (by omega)
  have hmax : (encode (.triggerBurst min max)).extractLsb' 0 8 = max := field_eq (by omega)
  rw [decode_op4 (Opcode.triggerBurst min max), hmin, hmax]
  exact strict_of_toNat_eq_zero (by rw [toNat_field]; omega)

theorem decode_encode_beepStart (freq dur : U16) (lvl : U8) :
    decode (encode (.beepStart freq dur lvl)) = .ok (.beepStart freq dur lvl) := by
  have hw : (encode (.beepStart freq dur lvl)).toNat =
      5 * 2 ^ 44 + (freq.toNat * 2 ^ 24 + dur.toNat * 2 ^ 8 + lvl.toNat) := Payload.beepStart freq dur lvl
  have hfreq : (encode (.beepStart freq dur lvl)).extractLsb' 24 16 = freq := field_eq (by omega)
  have hdur : (encode (.beepStart freq dur lvl)).extractLsb' 8 16 = dur := field_eq (by omega)
  have hlvl : (encode (.beepStart freq dur lvl)).extractLsb' 0 8 = lvl := field_eq (by omega)
  rw [decode_op5 (Opcode.beepStart freq dur lvl), hfreq, hdur, hlvl]
  exact strict_of_toNat_eq_zero (by rw [toNat_field]; omega)

theorem decode_encode_patternStart (imm : U8) : decode (encode (.patternStart imm)) = .ok (.patternStart imm) := by
  have hw : (encode (.patternStart imm)).toNat = 7 * 2 ^ 44 + imm.toNat := Payload.patternStart imm
  have himm : (encode (.patternStart imm)).extractLsb' 0 8 = imm := field_eq (by omega)
  rw [decode_op7 (Opcode.patternStart imm), himm]
  exact strict_of_toNat_eq_zero (by rw [toNat_field]; omega)

theorem decode_encode_setVolume (imm : U8) : decode (encode (.setVolume imm)) = .ok (.setVolume imm) := by
  have hw : (encode (.setVolume imm)).toNat = 8 * 2 ^ 44 + imm.toNat := Payload.setVolume imm
  have himm : (encode (.setVolume imm)).extractLsb' 0 8 = imm := field_eq (by omega)
  rw [decode_op8 (Opcode.setVolume imm), himm]
  exact strict_of_toNat_eq_zero (by rw [toNat_field]; omega)

theorem decode_encode_lfsrRanged (rmin rmax : U16) :
    decode (encode (.lfsrRanged rmin rmax)) = .ok (.lfsrRanged rmin rmax) := by
  have hw : (encode (.lfsrRanged rmin rmax)).toNat = 12 * 2 ^ 44 + (rmin.toNat * 2 ^ 16 + rmax.toNat) :=
    Payload.lfsrRanged rmin rmax
  have hmin : (encode (.lfsrRanged rmin rmax)).extractLsb' 16 16 = rmin := field_eq (by omega)
  have hmax : (encode (.lfsrRanged rmin rmax)).extractLsb' 0 16 = rmax := field_eq (by omega)
  rw [decode_opC (Opcode.lfsrRanged rmin rmax), hmin, hmax]
  exact strict_of_toNat_eq_zero (by rw [toNat_field]; omega)

/-- A reserved opcode's row keeps the 44 bits below it (R89). -/
theorem low_append (op : BitVec 4) (low : BitVec 44) : (op ++ low).extractLsb' 0 44 = low :=
  field_eq (by rw [toNat_append_eq]; omega)

/-- R88: the decoder reads back what the encoder writes. -/
@[simp] theorem decode_encode (i : Instr) : decode (encode i) = .ok i := by
  cases i with
  | triggerBurst min max => exact decode_encode_triggerBurst min max
  | beepStart freq dur lvl => exact decode_encode_beepStart freq dur lvl
  | patternStart imm => exact decode_encode_patternStart imm
  | setVolume imm => exact decode_encode_setVolume imm
  | lfsrRanged rmin rmax => exact decode_encode_lfsrRanged rmin rmax
  | reservedD low => rw [decode_opD (Opcode.reservedD low), encode, low_append]
  | reservedE low => rw [decode_opE (Opcode.reservedE low), encode, low_append]
  | reservedF low => rw [decode_opF (Opcode.reservedF low), encode, low_append]
  | _ => rfl

/-! ### The configurations that R7 and R201 allow -/

/-- R201, list by list of PATTERN_TABLE. -/
theorem Config.patternShapes_iff (c : Config) :
    c.patternShapes = true ↔ isOneTone c.patternTable.single = true ∧ isToneGapTone c.patternTable.double = true ∧
      isOneTone c.patternTable.error = true ∧ isOneTone c.patternTable.alert = true := by
  simp only [Config.patternShapes, Bool.and_eq_true]

theorem isOneTone_patternSteps {c : Config} (h : c.patternShapes = true) {tid : BitVec 2} (ht : tid ≠ 1) :
    isOneTone (Machine.patternSteps c tid) = true := by
  obtain ⟨hsingle, _, herror, halert⟩ := (Config.patternShapes_iff c).1 h
  unfold Machine.patternSteps
  split
  · exact hsingle
  · next h1 => exact absurd (BitVec.eq_of_toNat_eq h1) ht
  · exact herror
  · exact halert

theorem isToneGapTone_patternSteps {c : Config} (h : c.patternShapes = true) :
    isToneGapTone (Machine.patternSteps c 1) = true := by
  obtain ⟨_, hdouble, _⟩ := (Config.patternShapes_iff c).1 h
  exact hdouble

end Sys2Proof

namespace Sys2Proof.Machine

/-! ### One step (R13) -/

theorem step_of_not_accepted {s : State} (h : s.config.accepted ≠ true) : step s = .refused .configOutsideSpec := by
  obtain ⟨_, hs⟩ | ⟨hc, _⟩ | ⟨_, _, hc, _⟩ := step_cases s
  · exact hs
  · exact absurd hc h
  · exact absurd hc h

theorem step_of_pending {s : State} {w : Word48} {rest : List Word48} (hc : s.config.accepted = true)
    (hp : s.pending = w :: rest) : step s = execWord w (s.withPending rest) := by
  obtain ⟨hn, _⟩ | ⟨_, hn, _⟩ | ⟨w', rest', _, hp', hs⟩ := step_cases s
  · exact absurd (hc.symm.trans hn) (by decide)
  · exact absurd (hp.symm.trans hn) (by simp)
  · obtain ⟨rfl, rfl⟩ := List.cons_eq_cons.1 (hp.symm.trans hp')
    exact hs

theorem execWord_of_decode {w : Word48} {i : Instr} (h : decode w = .ok i) (s : State) : execWord w s = exec i s := by
  simp only [execWord, h]

/-- Settles O49: a step takes the oldest pending word, and a word that decodes to an instruction has its meaning. -/
theorem stepRunsTheDecodedInstr : Obligations.StepRunsTheDecodedInstr := fun _ _ _ _ hc hp hd =>
  (step_of_pending hc hp).trans (execWord_of_decode hd _)

/-- Settles O51: every constraint of R7 and every shape of R201 is a consequence of the check that the step makes. -/
theorem configurationOutsideTheSpecIsRefused : Obligations.ConfigurationOutsideTheSpecIsRefused := by
  intro s hout
  refine step_of_not_accepted fun hc => hout ?_
  obtain ⟨hwf, hshapes⟩ := (Config.accepted_iff _).1 hc
  refine ⟨?_, fun tid ht hne => ?_, fun hne => ?_⟩
  · obtain ⟨⟨hseed, hreseed⟩, ⟨hminmax, hmax⟩, ⟨hrate, hrate'⟩, hdelay, ⟨hatt, hatt'⟩, ⟨htail, htail'⟩, -,
      ⟨hvoices, hvoices'⟩, -⟩ :=
      (Config.wf_iff s.config).1 hwf
    exact ⟨hseed, hreseed, hminmax, hmax, hrate, hrate', hdelay, hatt, hatt', htail, htail', patternSteps_length_le hwf,
      hvoices, hvoices'⟩
  · exact ((isOneTone_iff _).1 (isOneTone_patternSteps hshapes ht)).resolve_left hne
  · obtain ⟨t1, gap, t2, hl, h1, hg, h2, hd1, hdg, hd2⟩ :=
      ((isToneGapTone_iff _).1 (isToneGapTone_patternSteps hshapes)).resolve_left hne
    exact ⟨t1, gap, t2, hl, h1, hg, h2, by simp [hd1], by simp [hdg], by simp [hd2]⟩

/-! ### No meaning reads the channel (R13, R70) -/

/-- The same outcome, with `q` pending in the next state if there is one. -/
def withPendingAfter (q : List Word48) : Result → Result
  | .next t => .next (t.withPending q)
  | .fault f => .fault f
  | .refused r => .refused r

theorem burstFire_withPending (s : State) (q : List Word48) :
    (s.withPending q).burstFire = s.burstFire.withPending q := by
  obtain ⟨hlast, h⟩ | ⟨hmore, h⟩ := burstFire_cases s <;> rw [h]
  · exact if_pos hlast
  · exact if_neg hmore

theorem burstAdvance_withPending (s : State) (q : List Word48) :
    (s.withPending q).burstAdvance = s.burstAdvance.withPending q := by
  obtain ⟨hoff, h⟩ | ⟨hon, hwait, h⟩ | ⟨hon, hdue, hrem, h⟩ := burstAdvance_cases s <;> rw [h]
  · exact if_pos hoff
  · exact (if_neg (by simp [hon])).trans (if_neg hwait)
  · rw [← burstFire_withPending]
    exact (if_neg (by simp [hon])).trans (if_pos ⟨hdue, hrem⟩)

theorem patternAdvance_withPending (s : State) (q : List Word48) :
    (s.withPending q).patternAdvance = s.patternAdvance.withPending q := by
  have hdue : (s.withPending q).dueStep = s.dueStep := rfl
  simp only [State.patternAdvance, State.withPending_pattern, hdue]
  split
  · rfl
  · split
    · cases s.dueStep <;> rfl
    · rfl

theorem beforeVoices_withPending (s : State) (q : List Word48) :
    (s.withPending q).beforeVoices = s.beforeVoices.withPending q := by
  rw [State.beforeVoices, burstAdvance_withPending, patternAdvance_withPending, State.beforeVoices]

theorem execTick_withPending (s : State) (q : List Word48) :
    execTick (s.withPending q) = withPendingAfter q (execTick s) := by
  simp only [execTick, beforeVoices_withPending, State.withPending_config, State.withPending_attackEnv,
    State.withPending_lfsr, State.withPending_voices]
  split <;> rfl

/-- What an instruction does, and whether it stops, does not depend on the words that wait behind it. -/
theorem exec_withPending (i : Instr) (s : State) (q : List Word48) :
    exec i (s.withPending q) = withPendingAfter q (exec i s) := by
  cases i with
  | tick => exact execTick_withPending s q
  | triggerBurst min max =>
    simp only [exec, execTriggerBurst]
    split <;> rfl
  | _ => rfl

/-! ### Pending words run in their order (R70) -/

/-- One step on the word of `i` is the meaning of `i`, with the words behind it left in the channel. -/
theorem step_encode {s : State} {i : Instr} {q : List Word48} (hc : s.config.accepted = true)
    (hp : s.pending = encode i :: q) (rest : List Word48) :
    step s = withPendingAfter q (exec i (s.withPending rest)) := by
  rw [step_of_pending hc hp, execWord_of_decode (decode_encode i), ← exec_withPending]
  rfl

/-- Writing back the words that were pending undoes any other write to the channel. -/
theorem State.withPending_withPending_of_pending {t : State} {rest : List Word48} (h : t.pending = rest) (q : List Word48) :
    (t.withPending q).withPending rest = t := by
  subst h
  rfl

/-- By induction on the instructions: the step on the first word is the first meaning, which keeps the configuration and the
channel, so that the other words are pending in the state it leaves. -/
theorem runSteps_eq_runInstrs (is : List Instr) (s : State) (rest : List Word48) (hc : s.config.accepted = true)
    (hp : s.pending = is.map encode ++ rest) : runSteps is.length s = runInstrs is (s.withPending rest) := by
  induction is generalizing s with
  | nil =>
    subst hp
    rfl
  | cons i is ih =>
    have hstep : step s = withPendingAfter (is.map encode ++ rest) (exec i (s.withPending rest)) := step_encode hc hp rest
    cases hexec : exec i (s.withPending rest) with
    | next t =>
      obtain ⟨hconfig, hpending⟩ := exec_config_pending hexec
      have hc' : (t.withPending (is.map encode ++ rest)).config.accepted = true := (congrArg Config.accepted hconfig).trans hc
      have htail : runSteps is.length (t.withPending (is.map encode ++ rest)) = runInstrs is t := by
        rw [ih _ hc' rfl, State.withPending_withPending_of_pending (rest := rest) hpending]
      simp only [List.length_cons, runSteps, runInstrs, hstep, hexec, withPendingAfter, htail, State.withPending_resp]
    | fault f => simp only [List.length_cons, runSteps, runInstrs, hstep, hexec, withPendingAfter]
    | refused r => simp only [List.length_cons, runSteps, runInstrs, hstep, hexec, withPendingAfter]

/-- Settles O52: no meaning reads the channel, so leaving the later words in it while the earlier ones run changes nothing. -/
theorem pendingWordsRunInOrder : Obligations.PendingWordsRunInOrder := fun is s rest hc hp =>
  runSteps_eq_runInstrs is s rest hc hp

end Sys2Proof.Machine
end

section
/-! PROOFS. State (10_state.md): reset (R48), the invariant (R49), the writers of each field (R46) and the sticky flag (R40). -/

namespace Sys2Proof.Machine

/-! ### What a step that goes on has done -/

/-- A word is run as the instruction that it decodes to, or it is rejected and only raises Illegal (R90, R245). -/
theorem execWord_next {w : Word48} {s t : State} (h : execWord w s = .next t) :
    (∃ i, decode w = .ok i ∧ exec i s = .next t) ∨ (∃ e, decode w = .error e ∧ t = s.raiseIllegal) := by
  cases hd : decode w with
  | ok i => exact .inl ⟨i, rfl, (execWord_of_decode hd s).symm.trans h⟩
  | error e =>
    simp only [execWord, hd] at h
    exact .inr ⟨e, rfl, (next_inj h).symm⟩

theorem step_next {s t : State} (h : step s = .next t) :
    (s.pending = [] ∧ t = s) ∨ ∃ w rest, s.pending = w :: rest ∧ execWord w (s.withPending rest) = .next t := by
  obtain ⟨_, hs⟩ | ⟨_, hp, hs⟩ | ⟨w, rest, _, hp, hs⟩ := step_cases s <;> rw [hs] at h
  · cases h
  · exact .inl ⟨hp, (next_inj h).symm⟩
  · exact .inr ⟨w, rest, hp, h⟩

/-! ### The draw of a burst's count (R160), and the clamp of VOLUME (R242) -/

theorem burstMin_pos (min : U8) : 1 ≤ burstMin min := Nat.le_max_right _ _

theorem burstMin_le_burstMax (min max : U8) : burstMin min ≤ burstMax min max := Nat.le_max_right _ _

theorem burstMax_lt (min max : U8) : burstMax min max < 256 :=
  Nat.max_lt.2 ⟨max.isLt, Nat.max_lt.2 ⟨min.isLt, by decide⟩⟩

/-- The drawn count lies in `[mn, mx]`, so that B.REM's 8 bits hold it. -/
theorem countDraw_bounds (c : Config) (min max : U8) (lfsr : U16) :
    burstMin min ≤ (countDraw c min max lfsr).toNat ∧ (countDraw c min max lfsr).toNat ≤ burstMax min max := by
  have hle := burstMin_le_burstMax min max
  have hlt := burstMax_lt min max
  have hb := rangeMap_bounds (BitVec.ofNat 16 (burstMin min)) (BitVec.ofNat 16 (burstMax min max)) (nextDraw c lfsr)
  simp only [countDraw, rangedNext, BitVec.toNat_ofNat] at hb ⊢
  omega

theorem clampVolume_toNat (imm : U8) : (clampVolume imm).toNat = min imm.toNat 100 := by
  simp only [clampVolume, BitVec.toNat_ofNat]
  omega

/-! ### The invariant (R49) -/

/-- Settles O58: the reference configuration is inside R7, and reset meets the invariant in every such configuration. -/
theorem resetMeetsTheInvariant : Obligations.ResetMeetsTheInvariant := resetWith_inv (c := Config.reference) (by decide)

theorem inv_resetEngine {s : State} (h : s.Inv) : s.resetEngine.Inv :=
  inv_respond (inv_withPending (resetWith_inv h.config_wf) s.pending) s.resp

theorem inv_armBurst {s : State} (h : s.Inv) (min max : U8) : (s.armBurst min max).Inv := by
  refine inv_withLfsr (inv_withBurst h _ (fun _ => ?_) (fun hoff => Bool.noConfusion hoff)) _ (inv_nextDraw h _)
  exact (burstMin_pos min).trans (countDraw_bounds s.config min max s.lfsr).1

theorem inv_beforeVoices {s : State} (h : s.Inv) : s.beforeVoices.Inv := inv_patternAdvance (inv_burstAdvance h)

theorem inv_stopAll {s : State} (h : s.Inv) : ((s.withOsc (beepClear s.osc)).withPattern (patternClear s.pattern)).Inv :=
  inv_withPattern (inv_withOsc h _ (fun hs => absurd rfl hs)) _ (fun ha => Bool.noConfusion ha)
    (fun hv => Bool.noConfusion hv)

theorem inv_patternStart {s : State} (h : s.Inv) (imm : U8) : (s.withPattern (patternStarted s.config imm)).Inv :=
  inv_withPattern h _ (fun _ => rfl) (fun _ => Nat.zero_le _)

theorem inv_setVolume {s : State} (h : s.Inv) (imm : U8) : (s.withVolume (clampVolume imm)).Inv :=
  inv_withVolume h _ ((clampVolume_toNat imm).le.trans (Nat.min_le_right _ _))

/-- Every instruction's meaning keeps the invariant. -/
theorem inv_exec {i : Instr} {s t : State} (h : s.Inv) (he : exec i s = .next t) : t.Inv := by
  cases i with
  | tick =>
    obtain ⟨r, hr, rfl⟩ := execTick_next he
    exact inv_mixed (inv_beforeVoices h) hr
  | triggerBurst min max =>
    obtain ⟨_, _, hx⟩ | ⟨_, hx⟩ := execTriggerBurst_cases min max s <;> cases hx.symm.trans he
    · exact inv_respond h _
    · exact inv_respond (inv_armBurst h min max) _
  | init => cases he; exact inv_respond (inv_resetEngine h) _
  | triggerClick => cases he; exact inv_respond (inv_clickTrigger h) _
  | beepStart freq dur lvl =>
    cases he
    exact inv_respond (inv_withOsc h _ (inv_beepStart s.config freq dur lvl s.osc)) _
  | stopAll => cases he; exact inv_respond (inv_stopAll h) _
  | patternStart imm => cases he; exact inv_respond (inv_patternStart h imm) _
  | setVolume imm => cases he; exact inv_respond (inv_setVolume h imm) _
  | lfsrNext | lfsrRanged rmin rmax => cases he; exact inv_respond (inv_withLfsr h _ (inv_nextDraw h _)) _
  | nop | getVolume | getStatus => cases he; exact inv_respond h _
  | reservedD low | reservedE low | reservedF low => cases he; exact inv_raiseIllegal h

/-- Settles O59: a step waits, runs a meaning that keeps the invariant, or raises Illegal, of which the invariant does not speak. -/
theorem stepKeepsTheInvariant : Obligations.StepKeepsTheInvariant := by
  intro s t h hs
  obtain ⟨_, rfl⟩ | ⟨w, rest, _, hw⟩ := step_next hs
  · exact h
  · obtain ⟨i, _, he⟩ | ⟨e, _, rfl⟩ := execWord_next hw
    · exact inv_exec (inv_withPending h rest) he
    · exact inv_raiseIllegal (inv_withPending h rest)

/-! ### INIT (R48, R241, R280) -/

theorem voiceActive_of_inactive {s : State} (h : ∀ v ∈ s.voices, v.active = false) : s.voiceActive = false := by
  rw [Bool.eq_false_iff, ne_eq, voiceActive_iff]
  rintro ⟨v, hv, ha⟩
  exact Bool.noConfusion ((h v hv).symm.trans ha)

theorem status_of_quiet {s : State} (h : s.Quiet) (hill : s.ill = false) : s.status = 0 := by
  have hosc : s.osc.sounding = false := Bool.eq_false_iff.2 fun hs => (Osc.sounding_iff _).1 hs h.osc_off
  apply BitVec.eq_of_toNat_eq
  rw [status_toNat, voiceActive_of_inactive h.voices_off, hosc, h.pattern_off, h.burst_off, hill]
  rfl

theorem quiet_init (s : State) : (s.resetEngine.respond 0).Quiet where
  voices_off := fun v hv => by
    rw [State.respond_voices, State.resetEngine_voices] at hv
    rw [List.eq_of_mem_replicate hv]
    rfl
  burst_off := rfl
  osc_off := rfl
  pattern_off := rfl

theorem sameExcept_powerOn (s : State) : SameExcept [.pending, .resp] (s.resetEngine.respond 0) s.powerOn := by
  simp [sameExcept_iff, State.powerOn]

/-- Settles O43: INIT answers `resetEngine`, whose fields are those of the power-on state. -/
theorem initResetsEveryField : Obligations.InitResetsEveryField := by
  intro s
  refine ⟨s.resetEngine.respond 0, rfl, rfl, rfl, rfl, rfl, rfl, fun hv => ?_, rfl, rfl, status_of_quiet (quiet_init s) rfl,
    rfl, rfl, sameExcept_powerOn s⟩
  exact Nat.mod_eq_of_lt (by omega)

/-! ### The writers of each field (R46) -/

/-- The fields that an instruction's meaning may change. TRIGGER_BURST (0, 0) only responds (R160). -/
def writtenFields : Instr → List Field
  | .nop | .getVolume | .getStatus => [.resp]
  | .init => [.lfsr, .voices, .burst, .osc, .pattern, .volume, .ill, .attackEnv, .resp]
  | .tick => [.lfsr, .voices, .burst, .osc, .pattern, .resp]
  | .triggerClick => [.voices, .resp]
  | .triggerBurst min max => .resp :: if min = 0 ∧ max = 0 then [] else [.lfsr, .burst]
  | .beepStart _ _ _ => [.osc, .resp]
  | .stopAll => [.osc, .pattern, .resp]
  | .patternStart _ => [.pattern, .resp]
  | .setVolume _ => [.volume, .resp]
  | .lfsrNext | .lfsrRanged _ _ => [.lfsr, .resp]
  | .reservedD _ | .reservedE _ | .reservedF _ => [.ill, .resp]

/-- Every meaning leaves the fields outside `writtenFields` alone. -/
theorem exec_sameExcept {i : Instr} {s t : State} (h : exec i s = .next t) : SameExcept (writtenFields i) s t := by
  cases i with
  | tick =>
    obtain ⟨r, _, rfl⟩ := execTick_next h
    simp [sameExcept_iff, writtenFields, State.mixed, beforeVoices_config, beforeVoices_volume, beforeVoices_ill,
      beforeVoices_attackEnv, beforeVoices_pending]
  | triggerBurst min max =>
    obtain ⟨h0, h1, hx⟩ | ⟨hne, hx⟩ := execTriggerBurst_cases min max s <;> cases hx.symm.trans h
    · simp [sameExcept_iff, writtenFields, h0, h1]
    · rw [writtenFields, if_neg hne]
      simp [sameExcept_iff, State.armBurst]
  | _ => cases h; simp [sameExcept_iff, writtenFields]

theorem lfsr_writer {i : Instr} (h : .lfsr ∈ writtenFields i) :
    i = .tick ∨ i = .init ∨ i = .lfsrNext ∨ (∃ a b, i = .lfsrRanged a b) ∨
      ∃ a b, i = .triggerBurst a b ∧ ¬ (a = 0 ∧ b = 0) := by
  cases i <;> simp_all [writtenFields]

theorem voices_writer {i : Instr} (h : .voices ∈ writtenFields i) : i = .tick ∨ i = .init ∨ i = .triggerClick := by
  cases i <;> simp_all [writtenFields]

theorem burst_writer {i : Instr} (h : .burst ∈ writtenFields i) :
    i = .tick ∨ i = .init ∨ ∃ a b, i = .triggerBurst a b ∧ ¬ (a = 0 ∧ b = 0) := by
  cases i <;> simp_all [writtenFields]

theorem osc_writer {i : Instr} (h : .osc ∈ writtenFields i) :
    i = .tick ∨ i = .init ∨ i = .stopAll ∨ ∃ a b c, i = .beepStart a b c := by
  cases i <;> simp_all [writtenFields]

theorem pattern_writer {i : Instr} (h : .pattern ∈ writtenFields i) :
    i = .tick ∨ i = .init ∨ i = .stopAll ∨ ∃ a, i = .patternStart a := by
  cases i <;> simp_all [writtenFields]

theorem volume_writer {i : Instr} (h : .volume ∈ writtenFields i) : i = .init ∨ ∃ a, i = .setVolume a := by
  cases i <;> simp_all [writtenFields]

theorem attackEnv_writer {i : Instr} (h : .attackEnv ∈ writtenFields i) : i = .init := by
  cases i <;> simp_all [writtenFields]

theorem ill_writer {i : Instr} (h : .ill ∈ writtenFields i) : i = .init ∨ i.wf = false := by
  cases i <;> simp_all [writtenFields, Instr.wf]

/-- Settles O55: a field that differs is one that the instruction's meaning writes, and each field's writers are the named ones. -/
theorem onlyNamedCommandsWriteEachField : Obligations.OnlyNamedCommandsWriteEachField := by
  intro i s t h
  have written : ∀ f : Field, ¬ f.same s t → f ∈ writtenFields i := fun f => not_imp_comm.1 (exec_sameExcept h f)
  exact ⟨lfsr_writer ∘ written .lfsr, voices_writer ∘ written .voices, burst_writer ∘ written .burst,
    osc_writer ∘ written .osc, pattern_writer ∘ written .pattern, volume_writer ∘ written .volume,
    attackEnv_writer ∘ written .attackEnv, ill_writer ∘ written .ill⟩

/-! ### The sticky flag (R40, R261) -/

/-- R89, R245: what is no legal command raises Illegal. -/
theorem exec_of_not_wf {i : Instr} (h : i.wf = false) (s : State) : exec i s = .next s.raiseIllegal := by
  cases i with
  | reservedD low | reservedE low | reservedF low => rfl
  | _ => cases h

/-- ILL after an instruction: a legal command other than INIT keeps it, as no writer of ILL. -/
theorem exec_ill_iff {i : Instr} {s t : State} (h : exec i s = .next t) :
    t.ill = true ↔ i.wf = false ∨ (s.ill = true ∧ i ≠ .init) := by
  by_cases hinit : i = .init
  · subst hinit
    cases h
    simp [Instr.wf]
  by_cases hwf : i.wf = false
  · cases (exec_of_not_wf hwf s).symm.trans h
    simp [hwf]
  · have hkept : t.ill = s.ill := exec_sameExcept h .ill fun hmem => (ill_writer hmem).elim hinit hwf
    simp [hkept, hinit, hwf]

/-- Settles O48: a rejected word raises Illegal, and a decoded one sets and clears ILL as its instruction does. -/
theorem illegalFlagIsSticky : Obligations.IllegalFlagIsSticky := by
  intro s t w rest hp hs
  obtain ⟨hnil, _⟩ | ⟨w', rest', hp', hw⟩ := step_next hs
  · exact absurd (hp.symm.trans hnil) (by simp)
  obtain ⟨rfl, rfl⟩ := List.cons_eq_cons.1 (hp.symm.trans hp')
  obtain ⟨i, hd, he⟩ | ⟨e, hd, rfl⟩ := execWord_next hw
  · simpa [hd] using exec_ill_iff he
  · simp [hd]

end Sys2Proof.Machine
end

section
/-! PROOFS. Memory (20_memory.md): the byte order of a transport (R66), table reads in range (R65), commands that may be repeated
(R68), and the order of the command channel (R71). -/

/-! ### Words as bytes (R66) -/

namespace Sys2Proof

/-- A field cut from a word at `lo` is what is left of the word's number above `lo`, in the field's bits. -/
theorem field_eq_ofNat {w : Nat} (v : BitVec w) (lo n : Nat) : v.extractLsb' lo n = BitVec.ofNat n (v.toNat / 2 ^ lo) := by
  rw [BitVec.extractLsb', Nat.shiftRight_eq_div_pow]

/-- The six bytes of a word, joined from the first to the last, are the word. -/
theorem word_of_its_bytes (w : Word48) :
    w.extractLsb' 40 8 ++ (w.extractLsb' 32 8 ++ (w.extractLsb' 24 8 ++ (w.extractLsb' 16 8 ++
      (w.extractLsb' 8 8 ++ w.extractLsb' 0 8)))) = w := by
  apply BitVec.eq_of_toNat_eq
  simp only [toNat_append_eq, toNat_field]
  omega

theorem wordOfBytes_bytesOfWord (w : Word48) (rest : List Byte) :
    wordOfBytes (bytesOfWord w ++ rest) = some (w, rest) := by
  simp only [bytesOfWord, List.cons_append, List.nil_append, wordOfBytes, word_of_its_bytes]

/-- Byte `k` is cut from bit `8 * (5 - k)` up. -/
theorem bytesOfWord_getElem? (w : Word48) {k : Nat} (hk : k < 6) :
    (bytesOfWord w)[k]? = some (w.extractLsb' (8 * (5 - k)) 8) :=
  match k, hk with
  | 0, _ | 1, _ | 2, _ | 3, _ | 4, _ | 5, _ => rfl

/-- R283: only a stream that holds six bytes gives a word. -/
theorem wordOfBytes_of_short {bs : List Byte} (h : bs.length < 6) : wordOfBytes bs = none := by
  unfold wordOfBytes
  split
  · simp only [List.length_cons] at h
    omega
  · rfl

/-- Settles O7: the bytes are the word's fields, from the topmost down. -/
theorem transportIsMostSignificantByteFirst : Obligations.TransportIsMostSignificantByteFirst := by
  refine ⟨wordOfBytes_bytesOfWord, fun w k hk => ?_, fun _ => wordOfBytes_of_short, fun r => ?_⟩
  · rw [bytesOfWord_getElem? w hk, field_eq_ofNat]
  · rw [bytesOfResponse, field_eq_ofNat, field_eq_ofNat, pow_zero, Nat.div_one]

end Sys2Proof

namespace Sys2Proof.Machine

/-! ### TICK reads its tables in range (R65) -/

/-- Settles O35: with tables of their lengths the pool's advance answers, so TICK does; its frame is that of every TICK. -/
theorem tickCompletes : Obligations.TickCompletes := by
  intro s hc henv
  obtain ⟨-, -, -, -, -, -, -, -, -, -, hwave, hsine⟩ := (Config.wf_iff s.config).1 hc
  obtain ⟨r, hr⟩ : ∃ r, poolAdvance s.beforeVoices.config s.beforeVoices.attackEnv s.beforeVoices.lfsr
      s.beforeVoices.voices = .ok r := by
    rw [beforeVoices_config, beforeVoices_attackEnv]
    exact poolAdvance_answers hwave henv hsine _ _
  have htick : exec .tick s = .next (s.beforeVoices.mixed r) := execTick_of_pool hr
  exact ⟨_, htick, exec_sameExcept htick⟩

/-! ### The order of the channel (R71) -/

theorem allTicks_replicate (n : Nat) : allTicks (List.replicate n tickWord) = true :=
  List.all_eq_true.2 fun _ hx => beq_iff_eq.2 (List.eq_of_mem_replicate hx)

theorem allTicks_cons_of_ne {x : Word48} (h : x ≠ tickWord) (q : List Word48) : allTicks (x :: q) = false := by
  simp [allTicks, h]

/-- A control word goes before words that are all TICKs. -/
theorem insertControl_of_allTicks (w : Word48) {q : List Word48} (h : allTicks q = true) : insertControl w q = w :: q := by
  cases q with
  | nil => rfl
  | cons x q => exact if_pos h

/-- A control word goes behind a first word that is no TICK. -/
theorem insertControl_cons_of_ne (w : Word48) {x : Word48} (h : x ≠ tickWord) (q : List Word48) :
    insertControl w (x :: q) = x :: insertControl w q :=
  if_neg (by simp [allTicks_cons_of_ne h])

theorem insertControl_controls_ticks (w : Word48) (n : Nat) {controls : List Word48} (h : ∀ x ∈ controls, x ≠ tickWord) :
    insertControl w (controls ++ List.replicate n tickWord) = controls ++ [w] ++ List.replicate n tickWord := by
  induction controls with
  | nil => exact insertControl_of_allTicks w (allTicks_replicate n)
  | cons x xs ih =>
    obtain ⟨hx, hxs⟩ := List.forall_mem_cons.1 h
    rw [List.cons_append, insertControl_cons_of_ne w hx, ih hxs]
    rfl

/-- A write to the channel leaves every other field alone. -/
theorem sameExcept_withPending (s : State) (q : List Word48) : SameExcept [.pending] s (s.withPending q) := by
  simp [sameExcept_iff]

/-- Settles O53: by induction on the pending control words, behind which the new word is carried. -/
theorem controlWordsGoBeforePendingTicks : Obligations.ControlWordsGoBeforePendingTicks := by
  intro s w controls n hcontrols hp
  refine ⟨?_, ?_, sameExcept_withPending s _, sameExcept_withPending s _⟩
  · rw [State.acceptControl, State.withPending_pending, hp]
    exact insertControl_controls_ticks w n hcontrols
  · rw [State.acceptTick, State.withPending_pending, hp, List.append_assoc, List.replicate_succ']
    rfl

/-! ### Commands that may be repeated (R68) -/

/-- A trigger reads of the pool only how many slots it has. -/
theorem triggeredPool_triggeredPool (c : Config) (vs : List Voice) :
    triggeredPool c (triggeredPool c vs) = triggeredPool c vs := by
  cases vs with
  | nil => rfl
  | cons v vs =>
    rw [triggeredPool_cons, triggeredPool_cons, List.map_map]
    rfl

theorem clickTrigger_clickTrigger (s : State) : s.clickTrigger.clickTrigger = s.clickTrigger :=
  congrArg s.withVoices (triggeredPool_triggeredPool s.config s.voices)

/-- A tone start reads of the oscillator only the phase, which it keeps or sets to 0. -/
theorem beepStart_beepStart (c : Config) (freq dur : U16) (lvl : U8) (o : Osc) :
    beepStart c freq dur lvl (beepStart c freq dur lvl o) = beepStart c freq dur lvl o := by
  unfold beepStart
  split
  · rfl
  · cases c.beepPhaseReset <;> rfl

/-- A command whose effect is idempotent answers again the state that it left. -/
theorem exec_repeat {i : Instr} {f : State → State} (hexec : ∀ s, exec i s = .next (f s)) (hf : ∀ s, f (f s) = f s)
    {s t : State} (h : exec i s = .next t) : exec i t = .next t := by
  obtain rfl : f s = t := next_inj ((hexec s).symm.trans h)
  rw [hexec, hf]

theorem triggerClick_repeat {s t : State} (h : exec .triggerClick s = .next t) : exec .triggerClick t = .next t :=
  exec_repeat (fun _ => rfl) (fun s => congrArg (·.respond 0) (clickTrigger_clickTrigger s)) h

theorem beepStart_repeat {freq dur : U16} {lvl : U8} {s t : State} (h : exec (.beepStart freq dur lvl) s = .next t) :
    exec (.beepStart freq dur lvl) t = .next t :=
  exec_repeat (fun _ => rfl)
    (fun s => congrArg (fun o => (s.withOsc o).respond 0) (beepStart_beepStart s.config freq dur lvl s.osc)) h

/-- Settles O56: TRIGGER_CLICK and BEEP_START read a part that they write, and have their lemmas; what the other
commands write comes from operands and from fields that they do not write, so their effects are idempotent by definition. -/
theorem idempotentCommandsRepeat : Obligations.IdempotentCommandsRepeat := by
  rintro i s t (rfl | rfl | rfl | rfl | rfl | ⟨imm, rfl⟩ | ⟨freq, dur, lvl, rfl⟩ | ⟨imm, rfl⟩ | rfl) h
  · exact exec_repeat (i := .nop) (fun _ => rfl) (fun _ => rfl) h
  · exact exec_repeat (i := .getVolume) (fun _ => rfl) (fun _ => rfl) h
  · exact exec_repeat (i := .getStatus) (fun _ => rfl) (fun _ => rfl) h
  · exact triggerClick_repeat h
  · exact exec_repeat (i := .stopAll) (fun _ => rfl) (fun _ => rfl) h
  · exact exec_repeat (i := .patternStart imm) (fun _ => rfl) (fun _ => rfl) h
  · exact beepStart_repeat h
  · exact exec_repeat (i := .setVolume imm) (fun _ => rfl) (fun _ => rfl) h
  · exact exec_repeat (i := .init) (fun _ => rfl) (fun _ => rfl) h

end Sys2Proof.Machine
end

section
/-! PROOFS. Encoding (30_encoding.md): encoder and decoder are inverse to each other (R88, R90), the decoder's words as numbers (R88),
illegal words (R89, R90), and the assembler (R95, R96). -/

/-! ### The word of an instruction as a number (R87, R95) -/

namespace Sys2Proof

open Laws Laws.Opcode Laws.Payload

/-- Settles O1: the round trip, which earlier proofs use too. -/
theorem decodeEncodeRoundTrip : Obligations.DecodeEncodeRoundTrip := decode_encode

/-- The opcode above the operands' number: the families' lemmas, put together. -/
theorem encode_toNat (i : Instr) : (encode i).toNat = opcodeOf i * 2 ^ 44 + payloadOf i :=
  match i with
  | .nop => Payload.nop
  | .init => Payload.init
  | .tick => Payload.tick
  | .triggerClick => Payload.triggerClick
  | .triggerBurst min max => Payload.triggerBurst min max
  | .beepStart freq dur lvl => Payload.beepStart freq dur lvl
  | .stopAll => Payload.stopAll
  | .patternStart imm => Payload.patternStart imm
  | .setVolume imm => Payload.setVolume imm
  | .getVolume => Payload.getVolume
  | .getStatus => Payload.getStatus
  | .lfsrNext => Payload.lfsrNext
  | .lfsrRanged rmin rmax => Payload.lfsrRanged rmin rmax
  | .reservedD low => Payload.reservedD low
  | .reservedE low => Payload.reservedE low
  | .reservedF low => Payload.reservedF low

theorem encode_triggerBurst_toNat (min max : U8) :
    (encode (.triggerBurst min max)).toNat = 0x400000000000 + min.toNat * 2 ^ 8 + max.toNat := by
  rw [encode_toNat, opcodeOf, payloadOf]
  omega

theorem encode_beepStart_toNat (freq dur : U16) (lvl : U8) :
    (encode (.beepStart freq dur lvl)).toNat =
      0x500000000000 + freq.toNat * 2 ^ 24 + dur.toNat * 2 ^ 8 + lvl.toNat := by
  rw [encode_toNat, opcodeOf, payloadOf]
  omega

theorem encode_patternStart_toNat (imm : U8) : (encode (.patternStart imm)).toNat = 0x700000000000 + imm.toNat := by
  rw [encode_toNat, opcodeOf, payloadOf]
  omega

theorem encode_setVolume_toNat (imm : U8) : (encode (.setVolume imm)).toNat = 0x800000000000 + imm.toNat := by
  rw [encode_toNat, opcodeOf, payloadOf]
  omega

theorem encode_lfsrRanged_toNat (rmin rmax : U16) :
    (encode (.lfsrRanged rmin rmax)).toNat = 0xC00000000000 + rmin.toNat * 2 ^ 16 + rmax.toNat := by
  rw [encode_toNat, opcodeOf, payloadOf]
  omega

/-! ### The formats: which bits are marked `0` (R82-R86) -/

/-- The lowest bit that the format of a defined opcode marks `0`. In every format the marked bits go from there up to bit 43. -/
def reservedFrom (op : Nat) : Nat :=
  match op with
  | 0x4 => 16
  | 0x5 => 40
  | 0x7 => 8
  | 0x8 => 8
  | 0xC => 32
  | _ => 0

/-- The `n` bits of a word from bit `lo` up. -/
def bitsFrom (lo n : Nat) : Word48 := (BitVec.allOnes n).setWidth 48 <<< lo

theorem reservedBitsOf_eq_bitsFrom : ∀ op ≤ 12, reservedBitsOf op = bitsFrom (reservedFrom op) (44 - reservedFrom op) := by
  decide

theorem bitsFrom_getElem (lo n k : Nat) (hk : k < 48) : (bitsFrom lo n)[k] = decide (lo ≤ k ∧ k - lo < n) := by
  by_cases hlo : lo ≤ k
  · simp [bitsFrom, hlo]
  · simp [bitsFrom, hlo]

/-- A bit is either among the selected ones, and then 0 in the word, or it is 0 in the mask. -/
theorem and_bitsFrom_eq_zero {w : Word48} {lo n : Nat} (h : w.extractLsb' lo n = 0) : w &&& bitsFrom lo n = 0 := by
  ext k hk
  rw [BitVec.getElem_and, bitsFrom_getElem lo n k hk]
  by_cases hin : lo ≤ k ∧ k - lo < n
  · have hbit : w[k] = (w.extractLsb' lo n).getLsbD (k - lo) := by simp [hin, hk]
    rw [hbit, h]
    simp
  · simp [hin]

/-! ### The decoder, format by format (R88) -/

theorem field_above_field (n lo len : Nat) : n / 2 ^ lo % 2 ^ len * 2 ^ lo + n % 2 ^ lo = n % 2 ^ (lo + len) := by
  rw [pow_add, Nat.mod_mul, Nat.mul_comm, Nat.add_comm]

/-- A word with a defined opcode is read strictly: the instruction has the word's opcode and the bits below the marked ones as its
operands, and is answered if the marked bits are 0. -/
theorem decode_of_defined {w : Word48} {op : Nat} (hop : (opField w).toNat = op) (h : op ≤ 12) :
    ∃ (m : String) (i : Instr), decode w = strict (w.extractLsb' (reservedFrom op) (44 - reservedFrom op)) m i ∧
      opcodeOf i = op ∧ payloadOf i = w.toNat % 2 ^ reservedFrom op := by
  have hnone : 0 = w.toNat % 2 ^ 0 := (Nat.mod_one _).symm
  have hbyte : (w.extractLsb' 0 8).toNat = w.toNat % 2 ^ 8 := by rw [toNat_field, pow_zero, Nat.div_one]
  match op, h with
  | 0, _ => exact ⟨_, _, decode_op0 hop, rfl, hnone⟩
  | 1, _ => exact ⟨_, _, decode_op1 hop, rfl, hnone⟩
  | 2, _ => exact ⟨_, _, decode_op2 hop, rfl, hnone⟩
  | 3, _ => exact ⟨_, _, decode_op3 hop, rfl, hnone⟩
  | 4, _ => exact ⟨_, _, decode_op4 hop, rfl, by simp only [payloadOf, toNat_field, reservedFrom]; omega⟩
  | 5, _ => exact ⟨_, _, decode_op5 hop, rfl, by simp only [payloadOf, toNat_field, reservedFrom]; omega⟩
  | 6, _ => exact ⟨_, _, decode_op6 hop, rfl, hnone⟩
  | 7, _ => exact ⟨_, _, decode_op7 hop, rfl, hbyte⟩
  | 8, _ => exact ⟨_, _, decode_op8 hop, rfl, hbyte⟩
  | 9, _ => exact ⟨_, _, decode_op9 hop, rfl, hnone⟩
  | 10, _ => exact ⟨_, _, decode_opA hop, rfl, hnone⟩
  | 11, _ => exact ⟨_, _, decode_opB hop, rfl, hnone⟩
  | 12, _ => exact ⟨_, _, decode_opC hop, rfl, by simp only [payloadOf, toNat_field, reservedFrom]; omega⟩

/-- R89: a word with a reserved opcode is read as that opcode's row, which is no legal command. -/
theorem decode_of_reserved {w : Word48} (h : 13 ≤ (opField w).toNat) :
    ∃ i : Instr, decode w = .ok i ∧ i.wf = false ∧ opcodeOf i = (opField w).toNat ∧ payloadOf i = w.toNat % 2 ^ 44 := by
  have hlow : (w.extractLsb' 0 44).toNat = w.toNat % 2 ^ 44 := by rw [toNat_field, pow_zero, Nat.div_one]
  have hlt := opField_cases w
  obtain hop | hop | hop : (opField w).toNat = 13 ∨ (opField w).toNat = 14 ∨ (opField w).toNat = 15 := by omega
  · exact ⟨_, decode_opD hop, rfl, hop.symm, hlow⟩
  · exact ⟨_, decode_opE hop, rfl, hop.symm, hlow⟩
  · exact ⟨_, decode_opF hop, rfl, hop.symm, hlow⟩

/-! ### Every word that decodes is its instruction's word (R90) -/

/-- Where the bits that a format marks are 0, the low 44 bits are the operands'. -/
theorem payload_of_decode {w : Word48} {i : Instr} (h : decode w = .ok i) :
    opcodeOf i = (opField w).toNat ∧ payloadOf i = w.toNat % 2 ^ 44 := by
  obtain hdef | hres : (opField w).toNat ≤ 12 ∨ 13 ≤ (opField w).toNat := by omega
  · obtain ⟨m, j, hd, hopc, hpay⟩ := decode_of_defined rfl hdef
    have hle : reservedFrom (opField w).toNat ≤ 44 := by unfold reservedFrom; split <;> decide
    obtain ⟨hzero, rfl⟩ := (strict_ok_iff _ m j i).1 (hd.symm.trans h)
    have hsplit := field_above_field w.toNat (reservedFrom (opField w).toNat) (44 - reservedFrom (opField w).toNat)
    rw [← toNat_field, hzero, Nat.zero_mul, Nat.zero_add, Nat.add_sub_cancel' hle] at hsplit
    exact ⟨hopc, hpay.trans hsplit⟩
  · obtain ⟨j, hd, _, hfields⟩ := decode_of_reserved hres
    cases hd.symm.trans h
    exact hfields

theorem encode_of_decode {w : Word48} {i : Instr} (h : decode w = .ok i) : encode i = w := by
  obtain ⟨hopc, hpay⟩ := payload_of_decode h
  have hw := w.isLt
  apply BitVec.eq_of_toNat_eq
  rw [encode_toNat, hopc, hpay, opField_toNat]
  omega

/-- Settles O2: what the decoder answers keeps the word's opcode and all its other bits, and the encoder writes both back. -/
theorem decodedWordHasOneSpelling : Obligations.DecodedWordHasOneSpelling := fun _ _ => encode_of_decode

/-! ### The decoder's words as numbers (R88) -/

theorem decode_ok_iff {w : Word48} {i : Instr} : decode w = .ok i ↔ encode i = w :=
  ⟨encode_of_decode, fun h => h ▸ decode_encode i⟩

theorem decode_ok_iff_toNat {w : Word48} {i : Instr} {n : Nat} (hn : (encode i).toNat = n) :
    decode w = .ok i ↔ w.toNat = n := by
  rw [decode_ok_iff, eq_iff_toNat, hn, eq_comm]

/-- Settles O3: the number of each instruction's one word, row by row. -/
theorem decoderReadsExactlyTheLegalWords : Obligations.DecoderReadsExactlyTheLegalWords := fun _ =>
  ⟨decode_ok_iff_toNat rfl, decode_ok_iff_toNat rfl, decode_ok_iff_toNat rfl, decode_ok_iff_toNat rfl,
    fun min max => decode_ok_iff_toNat (encode_triggerBurst_toNat min max),
    fun freq dur lvl => decode_ok_iff_toNat (encode_beepStart_toNat freq dur lvl), decode_ok_iff_toNat rfl,
    fun imm => decode_ok_iff_toNat (encode_patternStart_toNat imm),
    fun imm => decode_ok_iff_toNat (encode_setVolume_toNat imm), decode_ok_iff_toNat rfl, decode_ok_iff_toNat rfl,
    decode_ok_iff_toNat rfl, fun rmin rmax => decode_ok_iff_toNat (encode_lfsrRanged_toNat rmin rmax)⟩

/-- Settles O8: each word is its instruction's, as a number, and the NOP word with bit 0 set is rejected. -/
theorem wordsOfTheTableDecode : Obligations.WordsOfTheTableDecode :=
  ⟨(decode_ok_iff_toNat rfl).2 rfl, (decode_ok_iff_toNat rfl).2 rfl, (decode_ok_iff_toNat rfl).2 rfl,
    (decode_ok_iff_toNat rfl).2 rfl, (decode_ok_iff_toNat rfl).2 rfl, rfl⟩

/-! ### The assembler (R95, R96) -/

@[simp] theorem fits_iff (bits n : Nat) : fits bits n = true ↔ n < 2 ^ bits := decide_eq_true_iff

theorem toNat_ofNat_of_lt {bits n : Nat} (h : n < 2 ^ bits) : (BitVec.ofNat bits n).toNat = n := by
  rw [BitVec.toNat_ofNat, Nat.mod_eq_of_lt h]

/-- A line that stands for one instruction: its word, given by its number, or a refusal. -/
theorem assemble_one {l : AsmLine} {i : Instr} {p : Prop} [Decidable p] {n : Nat} (hexp : expand l = [i])
    (hwf : l.wf = true ↔ p) (hn : p → (encode i).toNat = n) :
    assemble l = if p then some [BitVec.ofNat 48 n] else none := by
  unfold assemble
  by_cases hp : p
  · rw [if_pos (hwf.2 hp), if_pos hp, hexp, List.map_singleton, ← hn hp, BitVec.ofNat_toNat, BitVec.setWidth_eq]
  · rw [if_neg (hp ∘ hwf.1), if_neg hp]

theorem assemble_triggerBurst (min max : Nat) : assemble (.triggerBurst min max) =
    if min < 2 ^ 8 ∧ max < 2 ^ 8 then some [BitVec.ofNat 48 (0x400000000000 + min * 2 ^ 8 + max)] else none :=
  assemble_one rfl (by rw [AsmLine.wf, Bool.and_eq_true, fits_iff, fits_iff]) fun ⟨hmin, hmax⟩ => by
    rw [encode_triggerBurst_toNat, toNat_ofNat_of_lt hmin, toNat_ofNat_of_lt hmax]

theorem assemble_beepStart (freq dur lvl : Nat) : assemble (.beepStart freq dur lvl) =
    if freq < 2 ^ 16 ∧ dur < 2 ^ 16 ∧ lvl < 2 ^ 8 then
      some [BitVec.ofNat 48 (0x500000000000 + freq * 2 ^ 24 + dur * 2 ^ 8 + lvl)] else none :=
  assemble_one rfl (by rw [AsmLine.wf, Bool.and_eq_true, Bool.and_eq_true, fits_iff, fits_iff, fits_iff, and_assoc])
    fun ⟨hfreq, hdur, hlvl⟩ => by
      rw [encode_beepStart_toNat, toNat_ofNat_of_lt hfreq, toNat_ofNat_of_lt hdur, toNat_ofNat_of_lt hlvl]

theorem assemble_patternStart (id : Nat) : assemble (.patternStart id) =
    if id < 2 ^ 8 then some [BitVec.ofNat 48 (0x700000000000 + id)] else none :=
  assemble_one rfl (fits_iff 8 id) fun hid => by rw [encode_patternStart_toNat, toNat_ofNat_of_lt hid]

theorem assemble_setVolume (pct : Nat) : assemble (.setVolume pct) =
    if pct < 2 ^ 8 then some [BitVec.ofNat 48 (0x800000000000 + pct)] else none :=
  assemble_one rfl (fits_iff 8 pct) fun hpct => by rw [encode_setVolume_toNat, toNat_ofNat_of_lt hpct]

theorem assemble_lfsrRanged (rmin rmax : Nat) : assemble (.lfsrRanged rmin rmax) =
    if rmin < 2 ^ 16 ∧ rmax < 2 ^ 16 then some [BitVec.ofNat 48 (0xC00000000000 + rmin * 2 ^ 16 + rmax)] else none :=
  assemble_one rfl (by rw [AsmLine.wf, Bool.and_eq_true, fits_iff, fits_iff]) fun ⟨hmin, hmax⟩ => by
    rw [encode_lfsrRanged_toNat, toNat_ofNat_of_lt hmin, toNat_ofNat_of_lt hmax]

/-- Settles O5: a line is accepted exactly when its operands fit, and operands that fit are the fields' numbers. -/
theorem assemblerEncodesOrRefuses : Obligations.AssemblerEncodesOrRefuses :=
  ⟨rfl, rfl, rfl, rfl, rfl, rfl, rfl, rfl, assemble_triggerBurst, assemble_beepStart, assemble_patternStart,
    assemble_setVolume, assemble_lfsrRanged⟩

theorem assemble_ticks {n : Nat} (h : 1 ≤ n) : assemble (.ticks n) = some (List.replicate n (encode .tick)) := by
  have hwf : (AsmLine.ticks n).wf = true := decide_eq_true h
  rw [assemble, if_pos hwf, expand, List.map_replicate]

/-- `BURST n` and `TRIGGER_BURST n, n` stand for one instruction and ask the same of `n`. -/
theorem assemble_burst (n : Nat) : assemble (.burst n) = assemble (.triggerBurst n n) := by
  have hwf : (AsmLine.triggerBurst n n).wf = (AsmLine.burst n).wf := Bool.and_self _
  rw [assemble, assemble, hwf]
  rfl

/-- Settles O6: TICKS and BURST by their lemmas; the names and BEEP_OFF have no operand to fit. -/
theorem pseudoInstructionsExpand : Obligations.PseudoInstructionsExpand :=
  ⟨fun _ => assemble_ticks, rfl, rfl, rfl, rfl, rfl, assemble_burst⟩

end Sys2Proof

namespace Sys2Proof.Machine

/-! ### Illegal words (R89, R90, R245) -/

/-- Settles O47: no reserved opcode is a legal command. -/
theorem reservedOpcodesRaiseIllegal : Obligations.ReservedOpcodesRaiseIllegal := fun s low =>
  ⟨exec_of_not_wf (i := .reservedD low) rfl s, exec_of_not_wf (i := .reservedE low) rfl s,
    exec_of_not_wf (i := .reservedF low) rfl s⟩

theorem execWord_of_reserved {w : Word48} (h : 13 ≤ (opField w).toNat) (s : State) : execWord w s = .next s.raiseIllegal := by
  obtain ⟨i, hd, hwf, _⟩ := decode_of_reserved h
  exact (execWord_of_decode hd s).trans (exec_of_not_wf hwf s)

/-- R90: a marked bit that is 1 makes the strict decoder reject the word. -/
theorem execWord_of_reservedBits {w : Word48} (h : (opField w).toNat ≤ 12)
    (hbits : w &&& reservedBitsOf (opField w).toNat ≠ 0) (s : State) : execWord w s = .next s.raiseIllegal := by
  obtain ⟨m, i, hd, _⟩ := decode_of_defined rfl h
  rw [reservedBitsOf_eq_bitsFrom _ h] at hbits
  rw [strict, if_neg (hbits ∘ and_bitsFrom_eq_zero)] at hd
  simp only [execWord, hd]

/-- Settles O4: the step takes the word, which is run as a reserved row or is rejected; both only raise Illegal. -/
theorem illegalWordsOnlyRaiseIllegal : Obligations.IllegalWordsOnlyRaiseIllegal := by
  intro s w rest hc hp hillegal
  rw [step_of_pending hc hp]
  obtain hres | ⟨hdef, hbits⟩ := hillegal
  · exact execWord_of_reserved hres _
  · exact execWord_of_reservedBits hdef hbits _

end Sys2Proof.Machine
end

section
/-! PROOFS. The noise generator (40_noise_generator.md): one step (R110), its period (R112), the guarded draw (R111), and the two
commands (R113, R115, R116). -/

namespace Sys2Proof.Machine

open Function

/-! ### One step, bit by bit (R110) -/

@[simp] theorem lfsrStep_zero (f : LfsrForm) : lfsrStep f 0 = 0 := by cases f <;> rfl

/-- Settles O9: FIB by the laws of its bits; in the GAL form bit 0 is the parity of the number and the shift halves it. -/
theorem lfsrStepFollowsItsForm : Obligations.LfsrStepFollowsItsForm := by
  refine ⟨lfsrStepFib_getLsbD, lfsrStepFib_top, fun s => ?_, lfsrStep_zero⟩
  have hparity : s.getLsbD 0 = decide (s.toNat % 2 = 1) := Nat.testBit_zero _
  have hhalf : s >>> 1 = BitVec.ofNat 16 (s.toNat / 2) := by
    rw [← Nat.shiftRight_one, ← BitVec.toNat_ushiftRight, BitVec.ofNat_toNat, BitVec.setWidth_eq]
  simp only [lfsrStep, lfsrStepGal, hparity, hhalf, decide_eq_true_eq]

/-! ### The step is linear: it takes XORs to XORs -/

theorem lfsrStepFib_xor (x y : U16) : lfsrStepFib (x ^^^ y) = lfsrStepFib x ^^^ lfsrStepFib y := by
  refine BitVec.eq_of_getLsbD_eq fun k hk => ?_
  rw [BitVec.getLsbD_xor]
  obtain h | rfl : k < 15 ∨ k = 15 := by omega
  · simp only [lfsrStepFib_getLsbD _ k h, BitVec.getLsbD_xor]
  · simp only [lfsrStepFib_top, BitVec.getLsbD_xor, Bool.xor_assoc, Bool.xor_left_comm]

/-- What a bit with the weight `c` adds to a XOR. -/
def weighted (b : Bool) (c : U16) : U16 := if b then c else 0

theorem weighted_xor (a b : Bool) (c : U16) : weighted (a ^^ b) c = weighted a c ^^^ weighted b c := by
  cases a <;> cases b <;> simp [weighted]

theorem lfsrStepGal_eq (s : U16) : lfsrStepGal s = s >>> 1 ^^^ weighted (s.getLsbD 0) 0xB400#16 := by
  unfold lfsrStepGal weighted
  split
  · rfl
  · exact BitVec.xor_zero.symm

theorem lfsrStepGal_xor (x y : U16) : lfsrStepGal (x ^^^ y) = lfsrStepGal x ^^^ lfsrStepGal y := by
  simp only [lfsrStepGal_eq, BitVec.getLsbD_xor, BitVec.ushiftRight_xor_distrib, weighted_xor]
  ac_rfl

/-- A map of the register that takes XORs to XORs: linear over the bits. -/
def XorLinear (g : U16 → U16) : Prop := ∀ x y, g (x ^^^ y) = g x ^^^ g y

theorem xorLinear_lfsrStep (f : LfsrForm) : XorLinear (lfsrStep f) := by
  cases f with
  | fib => exact lfsrStepFib_xor
  | gal => exact lfsrStepGal_xor

theorem XorLinear.map_zero {g : U16 → U16} (hg : XorLinear g) : g 0 = 0 := by
  have h := hg 0 0
  rwa [BitVec.xor_self, BitVec.xor_self] at h

theorem XorLinear.map_weighted {g : U16 → U16} (hg : XorLinear g) (b : Bool) (c : U16) :
    g (weighted b c) = weighted b (g c) := by
  cases b with
  | false => exact hg.map_zero
  | true => rfl

theorem XorLinear.iterate {g : U16 → U16} (hg : XorLinear g) : ∀ n : Nat, XorLinear g^[n]
  | 0 => fun _ _ => rfl
  | n + 1 => fun x y => by simp only [iterate_succ_apply, hg x y, hg.iterate n _ _]

/-! ### Many steps of a linear map at once

A linear map is known by its columns, the images of the 16 single bits. The columns of `g` composed with itself come from those of
`g`, so that `n` steps cost the squarings of the bits of `n` only. -/

/-- The XOR of the columns `cs` at the 1 bits of `s`. -/
def linComb : List U16 → U16 → U16
  | [], _ => 0
  | c :: cs, s => weighted (s.getLsbD 0) c ^^^ linComb cs (s >>> 1)

/-- The words with a single 1 bit, for the lowest `n` bits. -/
def units : Nat → List U16
  | 0 => []
  | n + 1 => 1 :: (units n).map fun c : U16 => c <<< 1

def columns (g : U16 → U16) : List U16 := (units 16).map g

/-- From the columns of `g`, those of `g` composed with itself. -/
def squared (cs : List U16) : List U16 := cs.map (linComb cs)

/-- `n` steps of the map with the columns `cs`, for an `n` of `k` bits. -/
def jump : Nat → List U16 → Nat → U16 → U16
  | 0, _, _, s => s
  | k + 1, cs, n, s => jump k (squared cs) (n / 2) (if n % 2 = 1 then linComb cs s else s)

theorem linComb_map {g : U16 → U16} (hg : XorLinear g) :
    ∀ (cs : List U16) (s : U16), linComb (cs.map g) s = g (linComb cs s)
  | [], _ => hg.map_zero.symm
  | c :: cs, s => by rw [List.map_cons, linComb, linComb, linComb_map hg cs, hg, hg.map_weighted]

theorem linComb_units_getLsbD : ∀ (n : Nat) (s : U16) (i : Nat), n ≤ 16 →
    (linComb (units n) s).getLsbD i = (decide (i < n) && s.getLsbD i)
  | 0, _, _, _ => by simp [units, linComb]
  | n + 1, s, i, hn => by
    have hshift : XorLinear fun c : U16 => c <<< 1 := fun x y => BitVec.shiftLeft_xor_distrib x y 1
    rw [units, linComb, linComb_map hshift, BitVec.getLsbD_xor, BitVec.getLsbD_shiftLeft]
    cases i with
    | zero => cases h : s.getLsbD 0 <;> simp [weighted]
    | succ i =>
      have hone : (weighted (s.getLsbD 0) 1).getLsbD (i + 1) = false := by cases s.getLsbD 0 <;> simp [weighted]
      rw [hone, Nat.add_sub_cancel, linComb_units_getLsbD n _ i (by omega), BitVec.getLsbD_ushiftRight, Nat.add_comm 1 i]
      by_cases hi : i < n
      · simp [hi, show i + 1 < 16 by omega]
      · simp [hi]

theorem linComb_units (s : U16) : linComb (units 16) s = s :=
  BitVec.eq_of_getLsbD_eq fun i hi => by rw [linComb_units_getLsbD 16 s i le_rfl, decide_eq_true hi, Bool.true_and]

theorem linComb_columns {g : U16 → U16} (hg : XorLinear g) (s : U16) : linComb (columns g) s = g s := by
  rw [columns, linComb_map hg, linComb_units]

theorem squared_columns {g : U16 → U16} (hg : XorLinear g) : squared (columns g) = columns g^[2] := by
  rw [squared, funext (linComb_columns hg), columns, List.map_map]
  rfl

theorem jump_columns : ∀ (k n : Nat) {g : U16 → U16} (s : U16), XorLinear g → n < 2 ^ k →
    jump k (columns g) n s = g^[n] s
  | 0, n, g, s, _, hn => by
    obtain rfl : n = 0 := by simpa using hn
    rfl
  | k + 1, n, g, s, hg, hn => by
    have hlow : (if n % 2 = 1 then g s else s) = g^[n % 2] s := by
      obtain h | h := Nat.mod_two_eq_zero_or_one n <;> simp [h]
    rw [jump, squared_columns hg, linComb_columns hg, hlow, jump_columns k _ _ (hg.iterate 2) (by omega), ← iterate_mul,
      ← iterate_add_apply, Nat.div_add_mod]

/-! ### The period (R112) -/

/-- The period is `n` if `n` steps return and `n / p` steps do not, for each prime `p` in `n`. -/
theorem minimalPeriod_eq_of_div_prime {α : Type} {g : α → α} {x : α} {n : Nat} (h : g^[n] x = x)
    (hp : ∀ p : Nat, p.Prime → p ∣ n → g^[n / p] x ≠ x) : minimalPeriod g x = n := by
  obtain ⟨a, ha⟩ := IsPeriodicPt.minimalPeriod_dvd h
  have ha1 : a = 1 := by
    by_contra hne
    obtain ⟨b, hb⟩ := a.minFac_dvd
    have hn : n = a.minFac * (minimalPeriod g x * b) := by rw [ha, Nat.mul_left_comm, ← hb]
    refine hp _ (Nat.minFac_prime hne) ⟨_, hn⟩ ?_
    rw [Nat.div_eq_of_eq_mul_right (Nat.minFac_pos a) hn]
    exact isPeriodicPt_iff_minimalPeriod_dvd.2 ⟨b, rfl⟩
  rw [ha, ha1, Nat.mul_one]

theorem prime_dvd_65535 {p : Nat} (hp : p.Prime) (h : p ∣ 65535) : p ∈ [3, 5, 17, 257] := by
  have hprimes : ∀ q ∈ [3, 5, 17, 257], Prime q := by
    simp only [← Nat.prime_iff]
    norm_num
  exact mem_list_primes_of_dvd_prod hp.prime hprimes h

/-- From 1, 65535 steps return and the quotients by its primes do not: the finite fact about the two tap masks. -/
theorem lfsrStep_jumps_from_one (f : LfsrForm) :
    jump 16 (columns (lfsrStep f)) 65535 1 = 1 ∧
      ∀ p ∈ [3, 5, 17, 257], jump 16 (columns (lfsrStep f)) (65535 / p) 1 ≠ 1 := by
  cases f with
  | fib => decide +kernel
  | gal => decide +kernel

theorem minimalPeriod_lfsrStep_one (f : LfsrForm) : minimalPeriod (lfsrStep f) 1 = 65535 := by
  have hjump : ∀ n < 2 ^ 16, jump 16 (columns (lfsrStep f)) n 1 = (lfsrStep f)^[n] 1 := fun n hn =>
    jump_columns 16 n 1 (xorLinear_lfsrStep f) hn
  obtain ⟨hreturns, hnot⟩ := lfsrStep_jumps_from_one f
  refine minimalPeriod_eq_of_div_prime ((hjump _ (by norm_num)).symm.trans hreturns) fun p hp hdvd => ?_
  rw [← hjump _ ((Nat.div_le_self _ p).trans_lt (by norm_num))]
  exact hnot p (prime_dvd_65535 hp hdvd)

theorem card_nonzero : (Finset.univ.erase (0 : U16)).card = 65535 := by
  rw [Finset.card_erase_of_mem (Finset.mem_univ _), Finset.card_univ, ← FinEnum.card_eq_fintypeCard, FinEnum.card_bitVec]
  rfl

/-- An orbit of 65535 values that stays off 0 visits every non-zero value: there are no more of them. -/
theorem exists_iterate_eq {g : U16 → U16} (h0 : g 0 = 0) {s u : U16} (hs : s ≠ 0) (hper : minimalPeriod g s = 65535)
    (hu : u ≠ 0) : ∃ n < 65535, g^[n] s = u := by
  have hne : ∀ n < 65535, g^[n] s ≠ 0 := fun n hn hz => hs <| by
    rw [← iterate_minimalPeriod (f := g) (x := s), hper, ← Nat.sub_add_cancel hn.le, iterate_add_apply, hz,
      iterate_fixed h0]
  have hinj : Set.InjOn (g^[·] s) (Finset.range 65535) := by
    rw [Finset.coe_range, ← hper]
    exact iterate_injOn_Iio_minimalPeriod
  have hsurj := Finset.surjOn_of_injOn_of_card_le (t := Finset.univ.erase 0) _
    (fun n hn => by simpa using hne n (by simpa using hn)) hinj (by rw [card_nonzero, Finset.card_range])
  obtain ⟨n, hn, rfl⟩ := hsurj (by simpa using hu)
  exact ⟨n, by simpa using hn, rfl⟩

/-- Every non-zero value is in the orbit of 1, so it has the period of 1. -/
theorem minimalPeriod_lfsrStep (f : LfsrForm) {s : U16} (hs : s ≠ 0) : minimalPeriod (lfsrStep f) s = 65535 := by
  have hone := minimalPeriod_lfsrStep_one f
  obtain ⟨n, _, rfl⟩ := exists_iterate_eq (lfsrStep_zero f) (by decide) hone hs
  rw [minimalPeriod_apply_iterate (minimalPeriod_pos_iff_mem_periodicPts.1 (by omega)), hone]

/-- Settles O10: every non-zero state has the minimal period 65535, and an orbit that long is all of the non-zero values. -/
theorem lfsrHasFullPeriod : Obligations.LfsrHasFullPeriod := by
  intro f s hs
  have hper := minimalPeriod_lfsrStep f hs
  refine ⟨?_, fun n hn hlt => ?_, fun u hu => exists_iterate_eq (lfsrStep_zero f) hs hper hu⟩
  · exact hper ▸ iterate_minimalPeriod
  · exact not_isPeriodicPt_of_pos_of_lt_minimalPeriod hn.ne' (hper ▸ hlt)

/-! ### The draw (R111) -/

/-- From a non-zero state no step gives 0: the orbit would not return from it. -/
theorem lfsrStep_ne_zero (f : LfsrForm) {s : U16} (hs : s ≠ 0) : lfsrStep f s ≠ 0 := by
  intro hz
  have hreturns := (lfsrHasFullPeriod f s hs).1
  rw [iterate_succ_apply (lfsrStep f) 65534, hz, iterate_fixed (lfsrStep_zero f)] at hreturns
  exact hs hreturns.symm

theorem nextDraw_of_ne_zero (c : Config) {r : U16} (h : r ≠ 0) : nextDraw c r = lfsrStep c.lfsrForm r :=
  if_neg (lfsrStep_ne_zero c.lfsrForm h)

/-- Settles O11: in an orbit of period 65535 a step neither reaches 0 nor stands still. -/
theorem drawsAreNonzeroAndChange : Obligations.DrawsAreNonzeroAndChange := by
  intro c r hr
  have hdraw := nextDraw_of_ne_zero c hr
  have hne : nextDraw c r ≠ 0 := hdraw ▸ lfsrStep_ne_zero c.lfsrForm hr
  obtain ⟨_, hshort, _⟩ := lfsrHasFullPeriod c.lfsrForm (nextDraw c r) hne
  exact ⟨hdraw, hne, nextDraw_of_ne_zero c hne ▸ hshort 1 (by decide) (by decide)⟩

/-! ### The commands (R113, R115, R116) -/

/-- Settles O12: the new register is the draw, in both cases of the guard. -/
theorem lfsrNextRespondsTheNewRegister : Obligations.LfsrNextRespondsTheNewRegister := fun s =>
  ⟨nextDraw s.config s.lfsr, fun h => if_neg h, fun h => if_pos h, fun h => nextDraw_ne_zero h s.lfsr, rfl⟩

/-- R113: over the full range the exact span is 65536, so the draw is kept as it is. -/
theorem rangeMap_full (r : U16) : rangeMap 0 65535 r = r :=
  BitVec.eq_of_toNat_eq <| (rangeMap_toNat 0 65535 r).trans (by simpa using Nat.mod_eq_of_lt r.isLt)

/-- Settles O13: the response is where the next draw falls in the range. -/
theorem lfsrRangedRespondsInRange : Obligations.LfsrRangedRespondsInRange := by
  intro s rmin rmax
  obtain ⟨hlow, hhigh⟩ := rangeMap_bounds rmin rmax (nextDraw s.config s.lfsr)
  refine ⟨rangedNext s.config rmin rmax s.lfsr, rfl, rangeMap_toNat _ _ _, hlow, hhigh, ?_⟩
  rintro rfl rfl
  exact rangeMap_full _

end Sys2Proof.Machine
end

section
/-! PROOFS. The click voices (41_click_voice.md): the attack envelope (R130), the trigger (R131-R133), one call of a slot's advance
(R134-R141), the pool's advance (R142, R143), and the lifetime of a click (R144). -/

namespace Sys2Proof.Machine

/-! ### The attack envelope (R130) -/

theorem attackEnvFrom_getElem?_zero (d : U16) {n : Nat} (hn : 1 ≤ n) (e : U16) : (attackEnvFrom d n e)[0]? = some e := by
  cases n with
  | zero => omega
  | succ n => rfl

/-- By induction on the entries: behind its first entry a table is the table of the decayed one. -/
theorem attackEnvFrom_getElem?_succ (d : U16) {n k : Nat} {e x y : U16} (hx : (attackEnvFrom d n e)[k]? = some x)
    (hy : (attackEnvFrom d n e)[k + 1]? = some y) : y = decayQ16 x d := by
  induction n generalizing k e with
  | zero => cases hx
  | succ n ih =>
    simp only [attackEnvFrom, List.getElem?_cons_succ] at hx hy
    cases k with
    | zero =>
      have hn : 0 < n := attackEnvFrom_length d n _ ▸ (List.getElem?_eq_some_iff.1 hy).1
      cases hx
      exact Option.some.inj (hy.symm.trans (attackEnvFrom_getElem?_zero d hn _))
    | succ k => exact ih hx hy

/-- Settles O14: neighbouring entries are one Q0.16 product apart, which is never an increase. -/
theorem attackEnvelopeDecaysByMultiplication : Obligations.AttackEnvelopeDecaysByMultiplication := by
  intro c
  refine ⟨rfl, ?_, attackEnvTable_length c, fun hn => attackEnvFrom_getElem?_zero _ hn _, fun k e f he hf => ?_⟩
  · rintro s rfl
    exact ⟨_, rfl, rfl⟩
  · obtain rfl := attackEnvFrom_getElem?_succ _ he hf
    exact ⟨decayQ16_toNat e _, decayQ16_le e _⟩

/-! ### The trigger (R131-R133) -/

theorem triggeredPool_getElem?_zero (c : Config) {vs : List Voice} (h : vs ≠ []) :
    (triggeredPool c vs)[0]? = some (armedVoice c) := by
  cases vs with
  | nil => exact absurd rfl h
  | cons v vs => rfl

theorem triggeredPool_getElem?_of_pos (c : Config) {vs : List Voice} {i : Nat} (h0 : 0 < i) (hi : i < vs.length) :
    (triggeredPool c vs)[i]? = some Voice.zero := by
  obtain ⟨k, rfl⟩ := Nat.exists_eq_add_one.2 h0
  cases vs with
  | nil => cases hi
  | cons v vs =>
    have hk : k < vs.length := Nat.lt_of_succ_lt_succ hi
    rw [triggeredPool_cons, List.getElem?_cons_succ, List.getElem?_map, List.getElem?_eq_getElem hk]
    rfl

/-- Settles O15: the next state is the triggered pool with response 0. -/
theorem triggerClickArmsSlotZero : Obligations.TriggerClickArmsSlotZero := by
  intro s
  have hexec : exec .triggerClick s = .next (s.clickTrigger.respond 0) := rfl
  refine ⟨_, hexec, rfl, triggeredPool_length _ _, fun hne => ?_, fun i h0 hi => triggeredPool_getElem?_of_pos _ h0 hi,
    exec_sameExcept hexec⟩
  have hslot := triggeredPool_getElem?_zero s.config hne
  obtain ⟨-, -, -, -, hbit, -⟩ := status_getLsbD (s.clickTrigger.respond 0)
  exact ⟨hslot, hbit.trans ((voiceActive_iff _).2 ⟨_, List.mem_of_getElem? hslot, rfl⟩)⟩

/-! ### One call of a slot's advance, case by case (R134) -/

section
variable {c : Config} {tbl : List U16} {lfsr : U16} {v : Voice}

theorem voiceAdvance_past_limit (ha : v.active = true) (hp : c.tailMaxSamples ≤ v.pos.toNat) :
    voiceAdvance c tbl lfsr v = .ok (deactivated lfsr v) := by
  simp [voiceAdvance, ha, hp]

theorem voiceAdvance_env_zero (ha : v.active = true) (hk : c.attackSamples ≤ v.pos.toNat) (he : v.env = 0) :
    voiceAdvance c tbl lfsr v = .ok (deactivated lfsr v) := by
  simp [voiceAdvance, ha, Nat.not_lt.2 hk, he]

theorem voiceAdvance_attack {wave env : U16} (ha : v.active = true) (hp : v.pos.toNat < c.tailMaxSamples)
    (hk : v.pos.toNat < c.attackSamples) (hw : c.attackWave[v.pos.toNat]? = some wave)
    (he : tbl[v.pos.toNat]? = some env) :
    voiceAdvance c tbl lfsr v = .ok { out := scaleQ16 (sext16 wave) env, voice := v.nextPos, lfsr := lfsr } := by
  simp [voiceAdvance, ha, Nat.not_le.2 hp, hk, attackSample_some hw he]

theorem voiceAdvance_tail {r : VoiceStep} (ha : v.active = true) (hp : v.pos.toNat < c.tailMaxSamples)
    (hk : c.attackSamples ≤ v.pos.toNat) (he : v.env ≠ 0) (hr : tailSample c lfsr v = .ok r) :
    voiceAdvance c tbl lfsr v = .ok r.advancePos := by
  rw [voiceAdvance, if_neg (by simp [ha]), if_neg (Nat.not_le.2 hp), if_neg (Nat.not_lt.2 hk), if_neg he, hr]

end

/-- Settles O18: each call falls under one case of the advance. -/
theorem voiceDeactivatesOnTheNextCall : Obligations.VoiceDeactivatesOnTheNextCall := fun c tbl lfsr _ =>
  ⟨voiceAdvance_inactive c tbl lfsr, voiceAdvance_past_limit, fun ha _ hk he => voiceAdvance_env_zero ha hk he⟩

/-- Settles O16: an entry of the recorded wave is in the i16 range, and a gain below 1 keeps it there. -/
theorem attackSampleScalesTheRecordedWave : Obligations.AttackSampleScalesTheRecordedWave := by
  intro c tbl lfsr wave env v ha hp hk hw he
  have hsample : scaleQ16 (sext16 wave) env = wave.toInt * (env.toNat : Int) / 65536 := by
    rw [scaleQ16_eq, sext16_eq_toInt]
  rw [← hsample]
  exact ⟨voiceAdvance_attack ha hp hk hw he, scaleQ16_inRange env (sext16_ge wave) (sext16_le wave)⟩

/-! ### The tail sample (R136-R140) -/

/-- R136, R137: the phase after the advance, from its increment clamped at 0. -/
theorem eq_tailPhase {c : Config} {r1 ph ph' : U16} {inc : Nat}
    (hinc : (inc : Int) =
      max 0 ((c.tailBaseInc.toNat : Int) + (((r1 &&& c.jitterMask).toNat : Int) - (c.jitterOffset.toNat : Int))))
    (hph : ph'.toNat = (ph.toNat + inc) % 65536) : ph' = tailPhase c r1 ph := by
  have hj : inc = jitterInc c r1 := by
    unfold jitterInc
    omega
  apply BitVec.eq_of_toNat_eq
  rw [hph, hj, tailPhase, BitVec.toNat_ofNat]

/-- R137: the sine table's index is the phase without its low byte. -/
theorem topByte_toNat (ph : U16) : (ph.extractLsb' 8 8).toNat = ph.toNat / 256 := by
  rw [toNat_field]
  omega

theorem tailNoise_eq (c : Config) (r2 env : U16) :
    tailNoise c r2 env = r2.toInt / (2 : Int) ^ c.noiseShift * (env.toNat : Int) / 65536 := by
  rw [tailNoise, scaleQ16_eq, sext16_eq_toInt, asr]

/-- Settles O17: the call is the tail sample at the sine entry that the advanced phase names. -/
theorem tailSampleFollowsTheRules : Obligations.TailSampleFollowsTheRules := by
  rintro c tbl lfsr ⟨active, pos, env, ph0⟩ r1 r2 ph wave inc tone noise rfl hp hk he rfl rfl hinc hph hw rfl rfl
  obtain rfl := eq_tailPhase hinc hph
  rw [← topByte_toNat] at hw
  rw [voiceAdvance_tail rfl hp hk he (tailSample_some hw), scaleQ16_eq, sext16_eq_toInt, tailNoise_eq]
  rfl

/-- Settles O19: of the cases of a call only the tail sample keeps a slot active in the tail, and its decay is strict. -/
theorem tailEnvelopeStrictlyDecreases : Obligations.TailEnvelopeStrictlyDecreases := by
  intro c tbl lfsr v r h ha hk hr
  obtain ⟨hoff, _⟩ | ⟨_, _, rfl⟩ | ⟨_, _, hattack, _⟩ | ⟨_, _, _, he, _, rfl⟩ := voiceAdvance_cases h
  · exact Bool.noConfusion (hoff.symm.trans ha)
  · cases hr
  · omega
  · exact decayQ16_lt c.tailDecay he

/-- Settles O20: a call outputs 0, a scaled entry of the recorded wave, or a saturated sum. -/
theorem voiceOutputIsInRange : Obligations.VoiceOutputIsInRange := by
  intro c tbl lfsr v r h
  have hzero : (-32768 : Int) ≤ 0 ∧ (0 : Int) ≤ 32767 := by decide
  obtain ⟨_, rfl⟩ | ⟨_, _, rfl⟩ | ⟨_, _, _, wave, env, _, _, rfl⟩ | ⟨_, _, _, _, _, rfl⟩ := voiceAdvance_cases h
  · exact hzero
  · exact hzero
  · exact scaleQ16_inRange env (sext16_ge wave) (sext16_le wave)
  · exact ⟨sat16_ge _, sat16_le _⟩

/-! ### The pool's advance (R142, R143) -/

/-- Settles O21: behind slot 0 the inactive slots add 0, draw nothing and keep their values. -/
theorem poolIsMonophonic : Obligations.PoolIsMonophonic := by
  intro c tbl lfsr v vs r hoff h
  obtain ⟨q, p, hq, hp, rfl⟩ := poolAdvance_cons_ok h
  cases (poolAdvance_inactive c tbl q.lfsr vs hoff).symm.trans hp
  exact ⟨q, hq, Int.add_zero _, rfl, rfl⟩

/-- Settles O22: by induction on the slots, each of which adds one output in the i16 range. -/
theorem clickSumIsBounded : Obligations.ClickSumIsBounded := by
  intro c tbl lfsr vs r h
  induction vs generalizing lfsr r with
  | nil =>
    cases h
    exact ⟨rfl, le_rfl, le_rfl⟩
  | cons v vs ih =>
    obtain ⟨q, p, hq, hp, rfl⟩ := poolAdvance_cons_ok h
    obtain ⟨hlen, hlow, hhigh⟩ := ih _ _ hp
    obtain ⟨hqlow, hqhigh⟩ := voiceOutputIsInRange _ _ _ _ _ hq
    simp only [List.length_cons, Nat.cast_add, Nat.cast_one]
    omega

/-! ### The lifetime of a click (R144) -/

/-- Every slot that is still active has produced at least `k` samples. -/
def PlayedFor (k : Nat) (vs : List Voice) : Prop := ∀ v ∈ vs, v.active = true → k ≤ v.pos.toNat

/-- A call that keeps a slot active has counted POS up. -/
theorem voiceAdvance_pos_of_active {c : Config} {tbl : List U16} {lfsr : U16} {v : Voice} {r : VoiceStep}
    (hmax : c.tailMaxSamples ≤ 65535) (h : voiceAdvance c tbl lfsr v = .ok r) (ha : r.voice.active = true) :
    r.voice.pos.toNat = v.pos.toNat + 1 := by
  have hpos (hp : v.pos.toNat < c.tailMaxSamples) : (v.pos + 1).toNat = v.pos.toNat + 1 :=
    BitVec.toNat_add_of_lt (show v.pos.toNat + 1 < 2 ^ 16 by omega)
  obtain ⟨hoff, rfl⟩ | ⟨_, _, rfl⟩ | ⟨_, hp, _, _, _, _, _, rfl⟩ | ⟨_, hp, _, _, _, rfl⟩ := voiceAdvance_cases h
  · exact Bool.noConfusion (hoff.symm.trans ha)
  · cases ha
  · exact hpos hp
  · exact hpos hp

theorem playedFor_poolAdvance {c : Config} {tbl : List U16} {lfsr : U16} {vs : List Voice} {r : PoolStep} {k : Nat}
    (hmax : c.tailMaxSamples ≤ 65535) (h : poolAdvance c tbl lfsr vs = .ok r) (hk : PlayedFor k vs) :
    PlayedFor (k + 1) r.voices := by
  induction vs generalizing lfsr r with
  | nil =>
    cases h
    exact fun v hv => absurd hv List.not_mem_nil
  | cons v vs ih =>
    obtain ⟨q, p, hq, hp, rfl⟩ := poolAdvance_cons_ok h
    obtain ⟨hv, hvs⟩ := List.forall_mem_cons.1 hk
    refine List.forall_mem_cons.2 ⟨fun ha => ?_, ih hp hvs⟩
    rw [voiceAdvance_pos_of_active hmax hq ha]
    exact Nat.succ_le_succ (hv (voiceAdvance_active hq ha))

theorem burstAdvance_of_idle {s : State} (h : s.burst.active = false) : s.burstAdvance = s := if_pos h

/-- With no burst armed the voices find the scheduler and the pool as the TICK found them. -/
theorem beforeVoices_of_burst_idle {s : State} (h : s.burst.active = false) :
    s.beforeVoices.burst = s.burst ∧ s.beforeVoices.voices = s.voices := by
  obtain ⟨-, -, hvoices, hburst, -⟩ := patternAdvance_frame s
  rw [State.beforeVoices, burstAdvance_of_idle h]
  exact ⟨hburst, hvoices⟩

/-- A TICK from the invariant with no burst armed: it completes, keeps both, and ages every slot that it keeps active. -/
theorem tick_ages_slots {s : State} {k : Nat} (hs : s.Inv) (hb : s.burst.active = false) (hk : PlayedFor k s.voices) :
    ∃ t, exec .tick s = .next t ∧ t.config = s.config ∧ t.Inv ∧ t.burst.active = false ∧ PlayedFor (k + 1) t.voices := by
  obtain ⟨t, htick, -⟩ := tickCompletes s hs.config_wf (by rw [hs.attack_env, attackEnvTable_length])
  obtain ⟨hburst, hvoices⟩ := beforeVoices_of_burst_idle hb
  obtain ⟨-, -, -, -, -, ⟨-, hmax⟩, -⟩ := (Config.wf_iff _).1 hs.config_wf
  refine ⟨t, htick, (exec_config_pending htick).1, inv_exec hs htick, ?_⟩
  obtain ⟨r, hr, rfl⟩ := execTick_next htick
  rw [beforeVoices_config, hvoices] at hr
  exact ⟨(congrArg Burst.active hburst).trans hb, playedFor_poolAdvance hmax hr hk⟩

/-- By induction on the TICKs, each of which ages the slots by one sample. -/
theorem ticks_age_slots (n : Nat) {s : State} {k : Nat} (hs : s.Inv) (hb : s.burst.active = false)
    (hk : PlayedFor k s.voices) :
    ∃ t rs, runInstrs (List.replicate n .tick) s = some (t, rs) ∧ t.config = s.config ∧ t.Inv ∧
      PlayedFor (k + n) t.voices := by
  induction n generalizing s k with
  | zero => exact ⟨s, [], rfl, rfl, hs, hk⟩
  | succ n ih =>
    obtain ⟨u, htick, hconfig, hu, hbu, hku⟩ := tick_ages_slots hs hb hk
    obtain ⟨t, rs, hrun, hconfig', ht, hkt⟩ := ih hu hbu hku
    exact ⟨t, _, runInstrs_cons_next htick hrun, hconfig'.trans hconfig, ht, Nat.succ_add_eq_add_succ k n ▸ hkt⟩

/-- Settles O23: after `n` TICKs a slot that is still active would have POS at least `n`, past the invariant's TAIL_MAX_SAMPLES. -/
theorem clickEndsWithinItsTail : Obligations.ClickEndsWithinItsTail := by
  intro s n hs hb hn
  have htrigger : exec .triggerClick s = .next (s.clickTrigger.respond 0) := rfl
  obtain ⟨t, rs, hrun, hconfig, ht, hplayed⟩ :=
    ticks_age_slots n (k := 0) (inv_exec hs htrigger) hb (fun _ _ _ => Nat.zero_le _)
  refine ⟨t, _, runInstrs_cons_next htrigger hrun, fun v hv => Bool.eq_false_iff.2 fun ha => ?_⟩
  have hpos : n ≤ v.pos.toNat := Nat.zero_add n ▸ hplayed v hv ha
  have hlimit : v.pos.toNat ≤ s.config.tailMaxSamples := hconfig ▸ ht.pos_le v hv
  omega

end Sys2Proof.Machine
end

section
/-! PROOFS. The burst scheduler (42_burst_scheduler.md): arming a burst (R160), one advance (R161), the first fire and the number of
fires (R163), and the click of a fire in its own TICK (R285). -/

namespace Sys2Proof.Machine

/-! ### Arming a burst (R160) -/

/-- R160: where draw 1 falls in the clamped counts. -/
theorem countDraw_toNat (c : Config) (min max : U8) (lfsr : U16) :
    (countDraw c min max lfsr).toNat =
      burstMin min + (nextDraw c lfsr).toNat % (burstMax min max - burstMin min + 1) := by
  have hle := burstMin_le_burstMax min max
  have hlt := burstMax_lt min max
  have hmod := Nat.mod_lt (nextDraw c lfsr).toNat (Nat.add_one_pos (burstMax min max - burstMin min))
  have hlo : (BitVec.ofNat 16 (burstMin min)).toNat = burstMin min := Nat.mod_eq_of_lt (by omega)
  have hhi : (BitVec.ofNat 16 (burstMax min max)).toNat = burstMax min max := Nat.mod_eq_of_lt (by omega)
  rw [countDraw, rangedNext, rangeMap_toNat, hlo, hhi, Nat.min_eq_left hle, Nat.max_eq_right hle]
  exact Nat.mod_eq_of_lt (by omega)

/-- Settles O24: the armed burst holds the two draws, each inside its range. -/
theorem triggerBurstArmsADrawnBurst : Obligations.TriggerBurstArmsADrawnBurst := by
  intro s mn mx
  constructor
  · rintro rfl rfl
    rfl
  · rintro r1 r2 lo hi dlo dhi hne rfl rfl rfl rfl rfl rfl
    obtain ⟨hmn, hmx, _⟩ | ⟨_, hexec⟩ := execTriggerBurst_cases mn mx s
    · exact absurd ⟨hmn, hmx⟩ hne
    · obtain ⟨hlo, hhi⟩ := countDraw_bounds s.config mn mx s.lfsr
      obtain ⟨hdlo, hdhi⟩ := rangeMap_bounds s.config.burstDelayMin s.config.burstDelayMax
        (nextDraw s.config (nextDraw s.config s.lfsr))
      exact ⟨_, hexec, rfl, countDraw_toNat s.config mn mx s.lfsr, hlo, hhi, rangeMap_toNat _ _ _, hdlo, hdhi⟩

/-! ### One advance (R161) -/

@[simp] theorem Burst.counted_active (b : Burst) : b.counted.active = b.active := rfl
@[simp] theorem Burst.counted_rem (b : Burst) : b.counted.rem = b.rem := rfl
@[simp] theorem Burst.counted_delay (b : Burst) : b.counted.delay = countedDelay b.delay := rfl

theorem countedDelay_eq_zero_iff {d : U16} : countedDelay d = 0 ↔ d.toNat ≤ 1 := by
  rw [eq_iff_toNat, countedDelay_toNat]
  exact Nat.sub_eq_zero_iff_le

theorem countedDelay_of_pos {d : U16} (h : 1 ≤ d.toNat) : countedDelay d = d - 1 := by
  rw [eq_iff_toNat, countedDelay_toNat]
  bv_omega

theorem firedRem_eq_zero_iff {r : U8} : firedRem r = 0 ↔ r.toNat ≤ 1 := by
  rw [eq_iff_toNat, firedRem_toNat]
  exact Nat.sub_eq_zero_iff_le

theorem firedRem_of_pos {r : U8} (h : 1 ≤ r.toNat) : firedRem r = r - 1 := by
  rw [eq_iff_toNat, firedRem_toNat]
  bv_omega

theorem firesNow_iff (s : State) :
    firesNow s = true ↔ s.burst.active = true ∧ s.burst.delay.toNat ≤ 1 ∧ 1 ≤ s.burst.rem.toNat := by
  simp only [firesNow, Bool.and_eq_true, decide_eq_true_iff]

theorem firesNow_of_idle {s : State} (h : s.burst.active = false) : firesNow s = false := by
  simp [firesNow, h]

theorem firesNow_of_waiting {s : State} (h : 2 ≤ s.burst.delay.toNat) : firesNow s = false := by
  rw [Bool.eq_false_iff, ne_eq, firesNow_iff]
  omega

theorem burstAdvance_of_firesNow {s : State} (h : firesNow s = true) : s.burstAdvance = s.burstCounted.burstFire := by
  obtain ⟨ha, hd, hr⟩ := (firesNow_iff s).1 h
  exact (if_neg (by simp [ha])).trans (if_pos ⟨countedDelay_eq_zero_iff.2 hd, hr⟩)

theorem burstAdvance_of_not_firesNow {s : State} (ha : s.burst.active = true) (h : firesNow s = false) :
    s.burstAdvance = s.burstCounted := by
  refine (if_neg (by simp [ha])).trans (if_neg fun ⟨hd, hr⟩ => ?_)
  exact Bool.eq_false_iff.1 h ((firesNow_iff s).2 ⟨ha, countedDelay_eq_zero_iff.1 hd, hr⟩)

theorem burstFire_last {s : State} (h : s.burst.rem.toNat ≤ 1) : s.burstFire = s.clickTrigger.withBurst s.burst.ended :=
  if_pos (firedRem_eq_zero_iff.2 h)

theorem burstFire_redraws {s : State} (h : 2 ≤ s.burst.rem.toNat) :
    s.burstFire = (s.clickTrigger.withBurst (s.burst.redrawn (delayDraw s.config s.lfsr))).withLfsr
      (nextDraw s.config s.lfsr) :=
  if_neg fun h0 => by
    have := firedRem_eq_zero_iff.1 h0
    omega

theorem burstFire_voices (s : State) : s.burstFire.voices = triggeredPool s.config s.voices := by
  obtain ⟨_, h⟩ | ⟨_, h⟩ := burstFire_cases s <;> rw [h] <;> rfl

theorem burstFire_rem (s : State) : s.burstFire.burst.rem = firedRem s.burst.rem := by
  obtain ⟨_, h⟩ | ⟨_, h⟩ := burstFire_cases s <;> rw [h] <;> rfl

/-- Settles O25: each clause is one branch of the advance, with DELAY and REM counted down without wrapping. -/
theorem burstAdvanceCountsDownAndFires : Obligations.BurstAdvanceCountsDownAndFires := by
  intro s
  refine ⟨burstAdvance_of_idle, fun ha hd => ?_, fun ha hd hr => ?_, fun ha hd hr => ?_, fun ha hd hr => ?_⟩
  · rw [burstAdvance_of_not_firesNow ha (firesNow_of_waiting hd), ← countedDelay_of_pos (by omega)]
    rfl
  · rw [burstAdvance_of_not_firesNow ha (by simp [firesNow, hr]), ← countedDelay_eq_zero_iff.2 hd]
    rfl
  · have hfires : firesNow s = true := (firesNow_iff s).2 ⟨ha, hd, by simp [hr]⟩
    rw [burstAdvance_of_firesNow hfires, burstFire_last (by simp [hr])]
    simp only [Burst.ended, State.burstCounted_burst, Burst.counted_rem, Burst.counted_delay,
      countedDelay_eq_zero_iff.2 hd, hr]
    rfl
  · have hfires : firesNow s = true := (firesNow_iff s).2 ⟨ha, hd, by omega⟩
    rw [burstAdvance_of_firesNow hfires, burstFire_redraws (s := s.burstCounted) hr, ← firedRem_of_pos (by omega), ← ha]
    rfl

/-! ### The first fire (R163) -/

/-- The state after `k` advances that only count down. -/
def State.waited (s : State) (k : Nat) : State :=
  s.withBurst { s.burst with delay := BitVec.ofNat 16 (s.burst.delay.toNat - k) }

theorem waited_zero (s : State) : s.waited 0 = s := by
  simp [State.waited, State.withBurst]

theorem waited_delay_toNat (s : State) (k : Nat) : (s.waited k).burst.delay.toNat = s.burst.delay.toNat - k :=
  Nat.mod_eq_of_lt ((Nat.sub_le _ _).trans_lt s.burst.delay.isLt)

theorem burstCounted_waited (s : State) (k : Nat) : s.burstCounted.waited k = s.waited (k + 1) := by
  simp [State.waited, State.burstCounted, State.withBurst, Burst.counted, countedDelay_toNat, Nat.sub_sub, Nat.add_comm]

/-- By induction on the advances: before index max(d, 1) each of them finds a DELAY of 2 or more. -/
theorem burstAdvance_iterate_waiting {k : Nat} {s : State} (ha : s.burst.active = true)
    (hk : k < max s.burst.delay.toNat 1) : State.burstAdvance^[k] s = s.waited k ∧ firesIn k s = 0 := by
  induction k generalizing s with
  | zero => exact ⟨(waited_zero s).symm, rfl⟩
  | succ k ih =>
    have hwait : firesNow s = false := firesNow_of_waiting (by omega)
    have hcounted : s.burstAdvance = s.burstCounted := burstAdvance_of_not_firesNow ha hwait
    have hdelay : s.burstCounted.burst.delay.toNat = s.burst.delay.toNat - 1 := countedDelay_toNat _
    obtain ⟨hiter, hfires⟩ := ih (s := s.burstCounted) ha (by omega)
    constructor
    · rw [Function.iterate_succ_apply, hcounted, hiter, burstCounted_waited]
    · simp [firesIn, hwait, hcounted, hfires]

/-- Settles O26: after max(d, 1) - 1 advances that only count down, DELAY is at most 1. -/
theorem firstFireComesAfterTheDelay : Obligations.FirstFireComesAfterTheDelay := by
  intro s ha hr
  obtain ⟨n, hn⟩ : ∃ n, max s.burst.delay.toNat 1 = n + 1 := ⟨max s.burst.delay.toNat 1 - 1, by omega⟩
  have hwaited {k : Nat} (hk : k < max s.burst.delay.toNat 1) := burstAdvance_iterate_waiting ha hk
  have hlast : State.burstAdvance^[n] s = s.waited n := (hwaited (by omega)).1
  have hfires : firesNow (s.waited n) = true :=
    (firesNow_iff _).2 ⟨ha, by rw [waited_delay_toNat]; omega, hr⟩
  refine ⟨fun k hk => ?_, ?_, ?_⟩
  · obtain ⟨hiter, hnone⟩ := hwaited hk
    rw [hiter]
    exact ⟨rfl, rfl, rfl, hnone⟩
  · rw [hn, Nat.add_sub_cancel, hlast]
    exact hfires
  · rw [hn, Function.iterate_succ_apply', hlast, burstAdvance_of_firesNow hfires, burstFire_voices]
    rfl

/-! ### The number of fires (R163) -/

/-- The burst is over, or the time it still needs, DELAY for the next click and at most 65535 for each one after it, is at most `k`
advances. -/
def Burst.EndsWithin (b : Burst) (k : Nat) : Prop :=
  (b.active = false ∧ b.rem = 0) ∨
    (b.active = true ∧ 1 ≤ b.rem.toNat ∧ max b.delay.toNat 1 + 65535 * (b.rem.toNat - 1) ≤ k)

theorem endsWithin_of_count {b : Burst} {k : Nat} (ha : b.active = true) (hr : 1 ≤ b.rem.toNat)
    (hk : 65535 * b.rem.toNat ≤ k) : b.EndsWithin k := by
  have := b.delay.isLt
  exact .inr ⟨ha, hr, by omega⟩

theorem endsWithin_zero {b : Burst} (h : b.EndsWithin 0) : b.active = false ∧ b.rem = 0 := by
  obtain h | ⟨_, _, hk⟩ := h
  · exact h
  · omega

theorem burstFire_endsWithin {s : State} {k : Nat} (ha : s.burst.active = true)
    (hk : 65535 * (s.burst.rem.toNat - 1) ≤ k) : s.burstFire.burst.EndsWithin k := by
  obtain ⟨hlast, h⟩ | ⟨hmore, h⟩ := burstFire_cases s <;> rw [h]
  · exact .inl ⟨rfl, hlast⟩
  · refine endsWithin_of_count ha (u8_pos hmore) ?_
    exact (congrArg (65535 * ·) (firedRem_toNat s.burst.rem)).trans_le hk

/-- One advance takes one from the time that a burst needs, and one from its clicks exactly when it fires. -/
theorem endsWithin_burstAdvance {s : State} {k : Nat} (h : s.burst.EndsWithin (k + 1)) :
    s.burstAdvance.burst.EndsWithin k ∧
      (if firesNow s then 1 else 0) + s.burstAdvance.burst.rem.toNat = s.burst.rem.toNat := by
  obtain ⟨hidle, hrem⟩ | ⟨ha, hr, hk⟩ := h
  · rw [burstAdvance_of_idle hidle, firesNow_of_idle hidle]
    exact ⟨.inl ⟨hidle, hrem⟩, by simp⟩
  cases hf : firesNow s with
  | false =>
    have hd : 2 ≤ s.burst.delay.toNat := by
      by_contra hlt
      exact Bool.eq_false_iff.1 hf ((firesNow_iff s).2 ⟨ha, by omega, hr⟩)
    rw [burstAdvance_of_not_firesNow ha hf]
    refine ⟨.inr ⟨ha, hr, ?_⟩, Nat.zero_add _⟩
    rw [State.burstCounted_burst, Burst.counted_delay, Burst.counted_rem, countedDelay_toNat]
    omega
  | true =>
    rw [burstAdvance_of_firesNow hf]
    refine ⟨burstFire_endsWithin (s := s.burstCounted) ha ?_, ?_⟩
    · rw [State.burstCounted_burst, Burst.counted_rem]
      omega
    · rw [burstFire_rem, firedRem_toNat]
      exact Nat.add_sub_cancel' hr

/-- By induction on the advances: the clicks that have fired and the clicks that are left are always the count. -/
theorem firesIn_of_endsWithin {k : Nat} {s : State} (h : s.burst.EndsWithin k) :
    firesIn k s = s.burst.rem.toNat ∧ (State.burstAdvance^[k] s).burst.active = false ∧
      (State.burstAdvance^[k] s).burst.rem = 0 := by
  induction k generalizing s with
  | zero =>
    obtain ⟨ha, hr⟩ := endsWithin_zero h
    exact ⟨by rw [hr]; rfl, ha, hr⟩
  | succ k ih =>
    obtain ⟨hnext, hcount⟩ := endsWithin_burstAdvance h
    obtain ⟨hfires, hend⟩ := ih hnext
    exact ⟨by rw [firesIn, hfires, hcount], hend⟩

/-- A TICK advances the burst once (R161, R220). -/
theorem tick_burst {s t : State} (h : exec .tick s = .next t) : t.burst = s.burstAdvance.burst := by
  obtain ⟨r, _, rfl⟩ := execTick_next h
  obtain ⟨-, -, -, hburst, -⟩ := patternAdvance_frame s.burstAdvance
  exact hburst

theorem inv_tick_completes {s : State} (h : s.Inv) : ∃ t, exec .tick s = .next t ∧ t.Inv := by
  obtain ⟨t, htick, -⟩ := tickCompletes s h.config_wf (by rw [h.attack_env, attackEnvTable_length])
  exact ⟨t, htick, inv_exec h htick⟩

/-- By induction on the TICKs, each of which completes and advances the burst as a bare advance does. -/
theorem ticksThatFire_of_endsWithin {k : Nat} {s : State} (hs : s.Inv) (h : s.burst.EndsWithin k) :
    ∃ t rs, runInstrs (List.replicate k .tick) s = some (t, rs) ∧ ticksThatFire k s = s.burst.rem.toNat ∧
      t.burst.active = false ∧ t.burst.rem = 0 := by
  induction k generalizing s with
  | zero =>
    obtain ⟨ha, hr⟩ := endsWithin_zero h
    exact ⟨s, [], rfl, by rw [hr]; rfl, ha, hr⟩
  | succ k ih =>
    obtain ⟨u, htick, hu⟩ := inv_tick_completes hs
    obtain ⟨hnext, hcount⟩ := endsWithin_burstAdvance h
    rw [← tick_burst htick] at hnext hcount
    obtain ⟨t, rs, hrun, hfires, hend⟩ := ih hu hnext
    refine ⟨t, _, runInstrs_cons_next htick hrun, ?_, hend⟩
    simp only [ticksThatFire, htick, hfires, hcount]

/-- Settles O27: a burst of `n` needs at most 65535 advances for each click. -/
theorem burstFiresExactlyItsCount : Obligations.BurstFiresExactlyItsCount :=
  ⟨fun _ _ hs ha hk => ticksThatFire_of_endsWithin hs (endsWithin_of_count ha (hs.burst_armed ha) hk),
    fun _ _ ha hr hk => firesIn_of_endsWithin (endsWithin_of_count ha hr hk)⟩

/-! ### The click of a fire in its own TICK (R285) -/

/-- The advance of a pool just triggered is attack sample 0 of its first slot. -/
theorem poolAdvance_triggeredPool {c : Config} {tbl : List U16} (lfsr : U16) {vs : List Voice} {wave env : U16}
    (hvs : vs ≠ []) (hmax : 1 ≤ c.tailMaxSamples) (hatt : 1 ≤ c.attackSamples) (hw : c.attackWave[0]? = some wave)
    (he : tbl[0]? = some env) :
    poolAdvance c tbl lfsr (triggeredPool c vs) =
      .ok { clicks := scaleQ16 (sext16 wave) env
            voices := (armedVoice c).nextPos :: vs.tail.map voiceClear
            lfsr := lfsr } := by
  cases vs with
  | nil => exact absurd rfl hvs
  | cons v vs =>
    have hslot := voiceAdvance_attack (lfsr := lfsr) (v := armedVoice c) rfl hmax hatt hw he
    have hrest := poolAdvance_inactive c tbl lfsr _ (triggeredPool_tail_inactive c (v :: vs))
    exact (poolAdvance_cons hslot hrest).trans (by rw [Int.add_zero]; rfl)

theorem beforeVoices_of_pattern_idle {s : State} (h : s.pattern.active = false) : s.beforeVoices = s.burstAdvance := by
  obtain ⟨-, -, hpattern, -⟩ := burstAdvance_frame s
  exact if_pos (by rw [hpattern, h])

/-- With no tone a TICK responds the clicks as they are, if 16 bits hold them. -/
theorem mixed_resp_of_silent {s : State} {r : PoolStep} (h : s.osc.srem = 0) (hlow : -32768 ≤ r.clicks)
    (hhigh : r.clicks ≤ 32767) : (s.mixed r).resp.toInt = r.clicks := by
  have hquiet : s.osc.sounding = false := Bool.eq_false_iff.2 fun hs => (Osc.sounding_iff _).1 hs h
  simp only [State.mixed, State.respond_resp, hquiet, attenuated, Bool.and_false, Bool.false_eq_true, if_false,
    Osc.sample_inactive h, Int.add_zero, sat16_of_inRange hlow hhigh, toInt_toI16 hlow hhigh]

/-- Settles O40: the voices find the pool that the fire has triggered, and the mix of attack sample 0 alone is that sample. -/
theorem fireSoundsInItsOwnTick : Obligations.FireSoundsInItsOwnTick := by
  intro s wave env hs ha hd hosc hpat hw he
  have hr := hs.burst_armed ha
  have hfire := burstAdvance_of_firesNow ((firesNow_iff s).2 ⟨ha, hd, hr⟩)
  obtain ⟨-, -, -, -, ⟨hatt, -⟩, ⟨hmax, -⟩, -, ⟨hslots, -⟩, -⟩ := (Config.wf_iff _).1 hs.config_wf
  have hvs : s.voices ≠ [] := List.ne_nil_of_length_pos (hs.pool_length ▸ hslots)
  have hpool : s.beforeVoices.voices = triggeredPool s.config s.voices := by
    rw [beforeVoices_voices, hfire, burstFire_voices]
    rfl
  have htick := execTick_of_pool (s := s) (by
    rw [beforeVoices_config, beforeVoices_attackEnv, hpool]
    exact poolAdvance_triggeredPool _ hvs hmax hatt hw he)
  obtain ⟨hlow, hhigh⟩ := scaleQ16_inRange env (sext16_ge wave) (sext16_le wave)
  have hsilent : s.beforeVoices.osc.srem = 0 := by
    obtain ⟨-, hsame, -⟩ := burstAdvance_frame s
    rw [beforeVoices_of_pattern_idle hpat, hsame, hosc]
  refine ⟨_, htick, ?_, rfl, ?_⟩
  · rw [mixed_resp_of_silent hsilent hlow hhigh, scaleQ16_eq, sext16_eq_toInt]
  · rw [tick_burst htick, hfire, burstFire_rem, firedRem_toNat]
    exact Nat.sub_add_cancel hr

end Sys2Proof.Machine
end

section
/-! PROOFS. The beep oscillator (43_beep_oscillator.md): the square wave (R183), its start and stop (R180-R182, R184), and the samples
of a tone that sounds alone (R185). -/

namespace Sys2Proof.Machine

/-! ### One advance (R183) -/

/-- The top bit of PHASE is set in the upper half of its range. -/
theorem topPhaseBit_eq (p : U32) : p.getLsbD 31 = decide (2 ^ 31 ≤ p.toNat) :=
  (BitVec.msb_eq_getLsbD_last p).symm.trans (BitVec.msb_eq_decide p)

theorem Osc.sample_active {o : Osc} (h : o.srem ≠ 0) :
    o.sample = if 2 ^ 31 ≤ o.phase.toNat then (o.level.toNat : Int) * 128 else -((o.level.toNat : Int) * 128) := by
  simp only [Osc.sample, Osc.amplitude, if_neg h, topPhaseBit_eq, decide_eq_true_iff]

theorem Osc.sample_bounds (o : Osc) : -32640 ≤ o.sample ∧ o.sample ≤ 32640 := by
  have hlevel : o.level.toNat < 256 := o.level.isLt
  obtain h | h | h := o.sample_cases <;> rw [h] <;> omega

theorem Osc.sample_ne_zero {o : Osc} (h : o.srem ≠ 0) (hlevel : 1 ≤ o.level.toNat) : o.sample ≠ 0 := by
  rw [Osc.sample_active h]
  split <;> omega

@[simp] theorem Osc.advance_step (o : Osc) : o.advance.step = o.step := by
  unfold Osc.advance
  split <;> rfl

@[simp] theorem Osc.advance_level (o : Osc) : o.advance.level = o.level := by
  unfold Osc.advance
  split <;> rfl

/-- SREM counts down and stays at 0. -/
theorem Osc.advance_srem_toNat (o : Osc) : o.advance.srem.toNat = o.srem.toNat - 1 := by
  by_cases h : o.srem = 0
  · rw [Osc.advance_inactive h, h]
    rfl
  · rw [Osc.advance_active h]
    bv_omega

theorem Osc.advance_phase_toNat {o : Osc} (h : o.srem ≠ 0) :
    o.advance.phase.toNat = (o.phase.toNat + o.step.toNat) % 2 ^ 32 := by
  rw [Osc.advance_active h, BitVec.toNat_add]

theorem Osc.srem_ne_zero_iff (o : Osc) : o.srem ≠ 0 ↔ 0 < o.srem.toNat := by bv_omega

/-- Settles O29: the silent and the sounding oscillator, each by its lemmas. -/
theorem oscillatorAdvanceIsASquareWave : Obligations.OscillatorAdvanceIsASquareWave := by
  intro o
  refine ⟨fun h => ⟨Osc.sample_inactive h, Osc.advance_inactive h⟩, fun h => ?_, o.sample_bounds⟩
  refine ⟨fun hp => ?_, fun hp => ?_, Osc.sample_ne_zero h, Osc.advance_phase_toNat h, ?_, o.advance_step, o.advance_level⟩
  · rw [Osc.sample_active h, if_pos hp]
  · rw [Osc.sample_active h, if_neg (Nat.not_le.2 hp)]
  · rw [Osc.advance_srem_toNat]
    exact Nat.sub_add_cancel ((Osc.srem_ne_zero_iff o).1 h)

/-! ### Start and stop (R180-R182, R184) -/

/-- R180: by R7 the clamp ends below SAMPLE_RATE. -/
theorem clampFreq_lt {c : Config} (h : c.maxFreqHz.toNat < c.sampleRate) (freq : U16) : clampFreq c freq < c.sampleRate :=
  (Nat.min_le_right _ _).trans_lt h

/-- Settles O28: R7 keeps the sample count and the phase step below 2^32, so O.SREM and O.STEP hold them exactly. -/
theorem beepStartStartsOrSilences : Obligations.BeepStartStartsOrSilences := by
  intro s freq dur lvl hwf
  obtain ⟨-, ⟨-, hmax⟩, ⟨hrate, hrate'⟩, -⟩ := (Config.wf_iff _).1 hwf
  refine ⟨beepStart s.config freq dur lvl s.osc, rfl, ?_⟩
  obtain ⟨hoff, ho⟩ | ⟨hcount, hlvl, ho⟩ := beepStart_cases s.config freq dur lvl s.osc <;> rw [ho]
  · refine ⟨fun _ => rfl, fun hd hl => ?_⟩
    exact absurd hoff (not_or.2 ⟨Nat.one_le_iff_ne_zero.1 (sampleCount_pos hrate hd), hl⟩)
  · have hdur : dur ≠ 0 := fun h0 => hcount (by rw [h0, sampleCount_zero])
    refine ⟨fun h => (h.elim hdur hlvl).elim, fun _ _ => ⟨rfl, ?_, ?_, fun h => if_pos h, fun h => if_neg (by simp [h])⟩⟩
    · exact toNat_ofNat_of_lt (sampleCount_lt dur hrate')
    · exact toNat_ofNat_of_lt (phaseStep_lt hrate' (clampFreq_lt hmax freq))

/-- Settles O30: the next state is known outright; its flags are those of the cleared parts. -/
theorem stopAllClearsToneAndPattern : Obligations.StopAllClearsToneAndPattern := by
  intro s
  have hexec : exec .stopAll s = .next (((s.withOsc Osc.zero).withPattern Pattern.zero).respond 0) := rfl
  obtain ⟨-, -, hpattern, hosc, -⟩ := status_getLsbD (((s.withOsc Osc.zero).withPattern Pattern.zero).respond 0)
  exact ⟨_, hexec, rfl, rfl, rfl, hpattern, hosc, exec_sameExcept hexec⟩

/-! ### A tone that sounds alone (R185) -/

theorem Osc.iterate_advance_frame (o : Osc) (k : Nat) :
    (Osc.advance^[k] o).step = o.step ∧ (Osc.advance^[k] o).level = o.level := by
  induction k with
  | zero => exact ⟨rfl, rfl⟩
  | succ k ih => rwa [Function.iterate_succ_apply', Osc.advance_step, Osc.advance_level]

theorem Osc.iterate_advance_srem_toNat (o : Osc) (k : Nat) : (Osc.advance^[k] o).srem.toNat = o.srem.toNat - k := by
  induction k with
  | zero => rfl
  | succ k ih => rw [Function.iterate_succ_apply', Osc.advance_srem_toNat, ih, Nat.sub_sub]

/-- A tone is still sounding after `k` advances exactly when it had more than `k` samples left. -/
theorem Osc.iterate_advance_srem_ne_zero_iff (o : Osc) (k : Nat) : (Osc.advance^[k] o).srem ≠ 0 ↔ k < o.srem.toNat := by
  rw [Osc.srem_ne_zero_iff, Osc.iterate_advance_srem_toNat, Nat.sub_pos_iff_lt]

/-- While the tone sounds, each advance adds STEP to the phase. -/
theorem Osc.iterate_advance_phase_toNat (o : Osc) {k : Nat} (hk : k ≤ o.srem.toNat) :
    (Osc.advance^[k] o).phase.toNat = (o.phase.toNat + k * o.step.toNat) % 2 ^ 32 := by
  induction k with
  | zero =>
    rw [Nat.zero_mul, Nat.add_zero]
    exact (Nat.mod_eq_of_lt o.phase.isLt).symm
  | succ k ih =>
    obtain ⟨hstep, -⟩ := o.iterate_advance_frame k
    rw [Function.iterate_succ_apply', Osc.advance_phase_toNat ((o.iterate_advance_srem_ne_zero_iff k).2 hk), ih (by omega), hstep,
      Nat.mod_add_mod, Nat.add_assoc, Nat.succ_mul]

theorem toInt_toI16_sample (o : Osc) : (toI16 o.sample).toInt = o.sample := by
  obtain ⟨hlow, hhigh⟩ := o.sample_bounds
  exact toInt_toI16 (by omega) (by omega)

theorem toI16_sample_ne_zero {o : Osc} (h : o.srem ≠ 0) (hlevel : 1 ≤ o.level.toNat) : toI16 o.sample ≠ 0 := fun h0 =>
  Osc.sample_ne_zero h hlevel (by rw [← toInt_toI16_sample, h0]; rfl)

/-- No click, burst or pattern is active; a tone may sound. -/
structure State.OnlyTone (s : State) : Prop where
  voices_off : ∀ v ∈ s.voices, v.active = false
  burst_off : s.burst.active = false
  pattern_off : s.pattern.active = false

/-- A TICK then only advances the oscillator and responds its sample. -/
theorem execTick_of_onlyTone {s : State} (h : s.OnlyTone) :
    exec .tick s = .next ((s.withOsc s.osc.advance).respond (toI16 s.osc.sample)) := by
  have hsame : s.beforeVoices = s := by
    rw [beforeVoices_of_pattern_idle h.pattern_off, burstAdvance_of_idle h.burst_off]
  have hpool := poolAdvance_inactive s.config s.attackEnv s.lfsr s.voices h.voices_off
  rw [execTick_of_pool (s := s) (by rw [hsame]; exact hpool), hsame]
  obtain ⟨hlow, hhigh⟩ := s.osc.sample_bounds
  have hclicks : attenuated s.config s.osc.sounding 0 = 0 := by simp [attenuated]
  simp only [State.mixed, hclicks, Int.zero_add, sat16_of_inRange (v := s.osc.sample) (by omega) (by omega)]
  rfl

/-- By induction on the TICKs: their responses are the samples of the oscillator, advanced once each. -/
theorem ticks_of_onlyTone (n : Nat) {s : State} (h : s.OnlyTone) :
    ∃ t, runInstrs (List.replicate n .tick) s =
      some (t, (List.iterate Osc.advance s.osc n).map (fun o => toI16 o.sample)) := by
  induction n generalizing s with
  | zero => exact ⟨s, rfl⟩
  | succ n ih =>
    have hnext : ((s.withOsc s.osc.advance).respond (toI16 s.osc.sample)).OnlyTone :=
      ⟨h.voices_off, h.burst_off, h.pattern_off⟩
    obtain ⟨t, hrun⟩ := ih hnext
    exact ⟨t, runInstrs_cons_next (execTick_of_onlyTone h) hrun⟩

/-- An entry of a list of iterates, read through `g`, is the iterate that its index counts. -/
theorem eq_of_getElem?_map_iterate {α β : Type} {f : α → α} {g : α → β} {a : α} {n k : Nat} {r : β}
    (h : ((List.iterate f a n).map g)[k]? = some r) : r = g (f^[k] a) := by
  have hk := (List.getElem?_eq_some_iff.1 h).1
  rw [List.length_map, List.length_iterate] at hk
  rw [List.getElem?_map, List.getElem?_iterate f a n k hk] at h
  exact (Option.some.inj h).symm

/-- Settles O31: response `k` is the sample after `k` advances, which have counted SREM down by `k` and added STEP `k` times. -/
theorem toneSoundsForItsSamples : Obligations.ToneSoundsForItsSamples := by
  intro s m hvoices hburst hpattern hlevel
  obtain ⟨t, hrun⟩ := ticks_of_onlyTone (s.osc.srem.toNat + m) ⟨hvoices, hburst, hpattern⟩
  refine ⟨t, _, hrun, by rw [List.length_map, List.length_iterate], fun k r hr hk => ?_, fun k r hr hk => ?_⟩ <;>
    rw [eq_of_getElem?_map_iterate hr]
  · have hsrem := (s.osc.iterate_advance_srem_ne_zero_iff k).2 hk
    obtain ⟨-, hsame⟩ := s.osc.iterate_advance_frame k
    rw [← s.osc.iterate_advance_phase_toNat hk.le, ← hsame, toInt_toI16_sample]
    have hsample := Osc.sample_active hsrem
    exact ⟨toI16_sample_ne_zero hsrem (hsame ▸ hlevel), fun hp => hsample.trans (if_pos hp),
      fun hp => hsample.trans (if_neg (Nat.not_le.2 hp))⟩
  · have hsilent := mt (s.osc.iterate_advance_srem_ne_zero_iff k).1 (Nat.not_lt.2 hk)
    rw [Osc.sample_inactive (not_not.1 hsilent)]
    rfl

end Sys2Proof.Machine
end

section
/-! PROOFS. The pattern sequencer (44_pattern_sequencer.md): PATTERN_START (R200, R202), one advance (R203), and the times at which its
steps load (R204). -/

namespace Sys2Proof.Machine

/-! ### PATTERN_START (R200, R202) -/

/-- R200: ids above 3 fall back to Single. -/
theorem tableOf_toNat (id : U8) : (tableOf id).toNat = if id.toNat ≤ 3 then id.toNat else 0 := by
  unfold tableOf
  split
  next h => exact toNat_ofNat_of_lt (Nat.lt_succ_of_le h)
  next => rfl

/-- R200: the table of an id is the named one, in the source's order. -/
theorem patternSteps_tableOf (c : Config) (id : U8) :
    patternSteps c (tableOf id) =
      if id.toNat = 1 then c.patternTable.double
      else if id.toNat = 2 then c.patternTable.error
      else if id.toNat = 3 then c.patternTable.alert else c.patternTable.single := by
  rw [patternSteps, tableOf_toNat]
  by_cases h : id.toNat ≤ 3
  · rw [if_pos h]
    generalize id.toNat = n at h
    interval_cases n <;> rfl
  · rw [if_neg h, if_neg (by omega), if_neg (by omega), if_neg (by omega)]
    rfl

/-- Settles O32: the next state is known outright; its table is that of `tableOf`. -/
theorem patternStartSelectsItsTable : Obligations.PatternStartSelectsItsTable := by
  intro s imm
  refine ⟨patternStarted s.config imm, rfl, rfl, tableOf_toNat imm, rfl, rfl, ?_, patternSteps_tableOf s.config imm⟩
  exact decide_eq_true_iff.trans List.length_pos_iff

/-! ### One advance (R203) -/

theorem patternAdvance_of_idle {s : State} (h : s.pattern.active = false) : s.patternAdvance = s := if_pos h

/-- A step still has samples left. -/
theorem patternAdvance_of_counting {s : State} (ha : s.pattern.active = true) (h : s.pattern.srem ≠ 0) :
    s.patternAdvance = s.withPattern { s.pattern with srem := s.pattern.srem - 1 } := by
  rw [← Pattern.countDown_of_ne h]
  exact (if_neg (by simp [ha])).trans (if_neg h)

/-- No step is left. -/
theorem patternAdvance_of_noStep {s : State} (ha : s.pattern.active = true) (h0 : s.pattern.srem = 0)
    (hd : s.dueStep = none) : s.patternAdvance = s.withPattern s.pattern.ended := by
  rw [State.patternAdvance, if_neg (by simp [ha]), if_pos h0, hd]

/-- The sequencer once a step of `n` samples is loaded and its first sample is counted. -/
def Pattern.stepped (p : Pattern) (n : Nat) : Pattern := { p with idx := p.idx + 1, srem := BitVec.ofNat 32 (n - 1) }

theorem Pattern.countDown_loaded (p : Pattern) {n : Nat} (h : n < 2 ^ 32) :
    (p.loaded (BitVec.ofNat 32 n)).countDown = p.stepped n := by
  by_cases h0 : n = 0
  · rw [h0]
    rfl
  · have hne : (p.loaded (BitVec.ofNat 32 n)).srem ≠ 0 := fun hz => h0 (by
      rw [← toNat_ofNat_of_lt h]
      exact congrArg BitVec.toNat hz)
    have hsub : BitVec.ofNat 32 n - 1 = BitVec.ofNat 32 (n - 1) := by bv_omega
    rw [Pattern.countDown_of_ne hne, Pattern.stepped, ← hsub]
    rfl

/-- By R7 P.SREM holds the sample count of the step exactly. -/
theorem patternAdvance_of_dueStep {s : State} {st : PatternStep} (hwf : s.config.wf = true) (ha : s.pattern.active = true)
    (h0 : s.pattern.srem = 0) (hd : s.dueStep = some st) :
    s.patternAdvance = (s.loadStep st).withPattern (s.pattern.stepped (sampleCount s.config st.durationMs)) := by
  obtain ⟨-, -, ⟨-, hrate⟩, -⟩ := (Config.wf_iff _).1 hwf
  rw [State.patternAdvance, if_neg (by simp [ha]), if_pos h0, hd]
  exact congrArg (s.loadStep st).withPattern (Pattern.countDown_loaded s.pattern (sampleCount_lt st.durationMs hrate))

/-- Settles O33: one equation of the advance for each of its four cases. -/
theorem patternAdvanceLoadsSteps : Obligations.PatternAdvanceLoadsSteps := by
  intro s hwf
  refine ⟨patternAdvance_of_idle, patternAdvance_of_counting, fun ha h0 hpast => ?_, fun st u ha h0 hd hexec => ?_⟩
  · exact patternAdvance_of_noStep ha h0 (List.getElem?_eq_none hpast)
  · cases hexec
    exact patternAdvance_of_dueStep hwf ha h0 hd

/-! ### The times of the steps (R204) -/

/-- The samples left of a step pass without touching anything but P.SREM. -/
theorem patternAdvance_iterate_counting (n : Nat) {s : State} (ha : s.pattern.active = true)
    (hn : s.pattern.srem.toNat = n) :
    State.patternAdvance^[n] s = s.withPattern { s.pattern with srem := 0 } := by
  induction n generalizing s with
  | zero =>
    have h0 : s.pattern.srem = 0 := BitVec.eq_of_toNat_eq hn
    rw [← h0]
    rfl
  | succ n ih =>
    have hne : s.pattern.srem ≠ 0 := by bv_omega
    have hpred : (s.pattern.srem - 1).toNat = n := by bv_omega
    rw [Function.iterate_succ_apply, patternAdvance_of_counting ha hne,
      ih (s := s.withPattern { s.pattern with srem := s.pattern.srem - 1 }) ha hpred]
    rfl

/-- The sequencer runs table `tid` of the configuration `c`, and the next advance finds its step `k` due. -/
structure State.StepDue (c : Config) (tid : BitVec 2) (k : Nat) (s : State) : Prop where
  config : s.config = c
  tid : s.pattern.tid = tid
  active : s.pattern.active = true
  srem : s.pattern.srem = 0
  idx : s.pattern.idx.toNat = k

theorem State.StepDue.dueStep {c : Config} {tid : BitVec 2} {k : Nat} {s : State} (h : s.StepDue c tid k) :
    s.dueStep = (patternSteps c tid)[k]? := by
  rw [State.dueStep, h.config, h.tid, h.idx]

section
variable {c : Config} {tid : BitVec 2} {k : Nat} {s : State} {st : PatternStep}

/-- R203: the advance that finds step `k` due loads it; by R7 P.IDX does not wrap. -/
theorem State.StepDue.patternAdvance (h : s.StepDue c tid k) (hwf : c.wf = true) (hst : (patternSteps c tid)[k]? = some st) :
    s.patternAdvance = (s.loadStep st).withPattern (s.pattern.stepped (sampleCount c st.durationMs)) ∧
      s.patternAdvance.pattern.idx.toNat = k + 1 := by
  have hload := patternAdvance_of_dueStep (h.config ▸ hwf) h.active h.srem (h.dueStep.trans hst)
  rw [h.config] at hload
  have hk : k < (patternSteps c tid).length := (List.getElem?_eq_some_iff.1 hst).1
  have hlen := patternSteps_length_le hwf tid
  have hidx : (s.pattern.idx + 1).toNat = s.pattern.idx.toNat + 1 :=
    BitVec.toNat_add_of_lt (show s.pattern.idx.toNat + 1 < 2 ^ 8 by rw [h.idx]; omega)
  exact ⟨hload, by rw [hload, ← h.idx]; exact hidx⟩

/-- A step that lasts takes its sample count of advances, and then the next step is due. -/
theorem State.StepDue.next (h : s.StepDue c tid k) (hwf : c.wf = true) (hst : (patternSteps c tid)[k]? = some st)
    (hdur : st.durationMs ≠ 0) :
    (State.patternAdvance^[sampleCount c st.durationMs] s).StepDue c tid (k + 1) := by
  obtain ⟨-, -, ⟨hrate, hrate'⟩, -⟩ := (Config.wf_iff _).1 hwf
  have hpos := sampleCount_pos hrate hdur
  have hlt := sampleCount_lt st.durationMs hrate'
  obtain ⟨hload, hidx⟩ := h.patternAdvance hwf hst
  generalize sampleCount c st.durationMs = n at *
  obtain ⟨n, rfl⟩ : ∃ m, n = m + 1 := ⟨n - 1, by omega⟩
  rw [hload] at hidx
  have hcounting := patternAdvance_iterate_counting n
    (s := (s.loadStep st).withPattern (s.pattern.stepped (n + 1))) h.active (toNat_ofNat_of_lt (Nat.lt_of_succ_lt hlt))
  rw [Function.iterate_succ_apply, hload, hcounting]
  exact ⟨h.config, h.tid, h.active, rfl, hidx⟩

end

theorem samplesOfFirst_succ (c : Config) {steps : List PatternStep} {k : Nat} {st : PatternStep}
    (h : steps[k]? = some st) :
    samplesOfFirst c steps (k + 1) = samplesOfFirst c steps k + sampleCount c st.durationMs := by
  rw [samplesOfFirst, List.take_add_one, h, List.map_append, List.sum_append]
  rfl

/-- By induction on the steps: step `k` is due after the samples of the steps before it. -/
theorem stepDue_after_samplesOfFirst {c : Config} {tid : BitVec 2} {s : State} (hwf : c.wf = true) (h : s.StepDue c tid 0)
    (hdur : ∀ st ∈ patternSteps c tid, st.durationMs ≠ 0) {k : Nat} (hk : k ≤ (patternSteps c tid).length) :
    (State.patternAdvance^[samplesOfFirst c (patternSteps c tid) k] s).StepDue c tid k := by
  induction k with
  | zero => exact h
  | succ k ih =>
    have hst := List.getElem?_eq_getElem hk
    rw [samplesOfFirst_succ c hst, Nat.add_comm (samplesOfFirst _ _ _), Function.iterate_add_apply]
    exact (ih (Nat.le_of_succ_le hk)).next hwf hst (hdur _ (List.getElem_mem hk))

/-- Settles O34: after the samples of the first `k` steps step `k` is due, and after those of all steps none is. -/
theorem patternStepsAreTimedBySamples : Obligations.PatternStepsAreTimedBySamples := by
  rintro s steps hwf ha hidx h0 rfl hdur
  have hstart : s.StepDue s.config s.pattern.tid 0 := ⟨rfl, rfl, ha, h0, congrArg BitVec.toNat hidx⟩
  have hdue {k : Nat} (hk : k ≤ (patternSteps s.config s.pattern.tid).length) :=
    stepDue_after_samplesOfFirst hwf hstart hdur hk
  refine ⟨fun k hk => ⟨(hdue hk.le).active, (hdue hk.le).idx, ?_⟩, (hdue le_rfl).active, ?_⟩ <;>
    rw [Function.iterate_succ_apply']
  · exact ((hdue hk.le).patternAdvance hwf (List.getElem?_eq_getElem hk)).2
  · have hnone := (hdue le_rfl).dueStep.trans (List.getElem?_eq_none le_rfl)
    rw [patternAdvance_of_noStep (hdue le_rfl).active (hdue le_rfl).srem hnone]
    rfl

end Sys2Proof.Machine
end

section
/-! PROOFS. The mixer (45_mixer_tick.md): the response of a TICK (R220-R224), the first sample of a tone that a TICK loads (R285),
silence (R225), and the draws of a TICK (90_conflicts.md C9). -/

namespace Sys2Proof.Machine

/-! ### The mix (R220-R224) -/

/-- R222, R223: the clicks are scaled exactly when attenuation is enabled and the oscillator has samples left. -/
theorem attenuated_eq (c : Config) (o : Osc) (clicks : Int) :
    attenuated c o.sounding clicks =
      if c.attenEnable = true ∧ o.srem ≠ 0 then clicks * (c.clickAtten.toNat : Int) / 65536 else clicks := by
  simp only [attenuated, Bool.and_eq_true, Osc.sounding_iff, scaleQ16_eq]

/-- Settles O36: TICK answers the mix of the pool's advance, whose clicks are attenuated as R223 says. -/
theorem tickMixesAndSaturates : Obligations.TickMixesAndSaturates := by
  rintro s s1 s2 r clicks rfl rfl hpool rfl
  have htick : exec .tick s = .next (s.beforeVoices.mixed r) := execTick_of_pool hpool
  refine ⟨_, htick, ?_, rfl, rfl, rfl, tick_burst htick, rfl, exec_sameExcept htick⟩
  rw [← attenuated_eq, ← beforeVoices_config s]
  exact toInt_toI16_sat16 _

/-! ### The first sample of a loaded tone (R285) -/

/-- With no burst and no click a TICK responds the sample of the oscillator that the sequencer's advance leaves. -/
theorem tick_of_no_clicks {s : State} (hburst : s.burst.active = false) (hvoices : ∀ v ∈ s.voices, v.active = false) :
    ∃ t, exec .tick s = .next t ∧ t.resp.toInt = s.patternAdvance.osc.sample ∧ t.osc = s.patternAdvance.osc.advance ∧
      t.pattern = s.patternAdvance.pattern := by
  obtain ⟨-, -, hsame, -⟩ := patternAdvance_frame s
  obtain ⟨t, htick, hresp, -, -, hosc, -, hpattern, -⟩ :=
    tickMixesAndSaturates s s s.patternAdvance _ 0 (burstAdvance_of_idle hburst).symm rfl
      (poolAdvance_inactive _ _ _ _ (hsame ▸ hvoices)) (by simp)
  obtain ⟨hlow, hhigh⟩ := s.patternAdvance.osc.sample_bounds
  exact ⟨t, htick, by omega, hosc, hpattern⟩

/-- R180: the phase that a tone start leaves is in its upper half when it was and is not reset. -/
theorem startedPhase_upper_iff {reset : Bool} {old new : U32} (hreset : reset = true → new = 0)
    (hkept : reset = false → new = old) : 2 ^ 31 ≤ new.toNat ↔ reset = false ∧ 2 ^ 31 ≤ old.toNat := by
  cases reset with
  | true => simp [hreset rfl]
  | false => simp [hkept rfl]

/-- Settles O41: the sequencer's advance leaves the oscillator that BEEP_START leaves, whose sample is then the response. -/
theorem loadedToneSoundsInItsOwnTick : Obligations.LoadedToneSoundsInItsOwnTick := by
  intro s st hs hburst hvoices ha h0 hst htone hdur hlvl
  obtain ⟨o, hexec, -, hsounds⟩ := beepStartStartsOrSilences s st.freqHz st.durationMs st.level hs.config_wf
  obtain ⟨hlevel, hsrem, -, hreset, hkept⟩ := hsounds hdur hlvl
  obtain ⟨-, -, -, hload⟩ := patternAdvanceLoadsSteps s hs.config_wf
  have hosc : s.patternAdvance.osc = o := by
    rw [hload st _ ha h0 hst hexec]
    exact if_pos htone
  have hdue : s.StepDue s.config s.pattern.tid s.pattern.idx.toNat := ⟨rfl, rfl, ha, h0, rfl⟩
  obtain ⟨-, hidx⟩ := hdue.patternAdvance hs.config_wf hst
  obtain ⟨t, htick, hresp, htosc, htpattern⟩ := tick_of_no_clicks hburst hvoices
  rw [hosc] at hresp htosc
  obtain ⟨-, -, ⟨hrate, -⟩, -⟩ := (Config.wf_iff _).1 hs.config_wf
  have hpos : 0 < o.srem.toNat := hsrem ▸ sampleCount_pos hrate hdur
  refine ⟨t, htick, ?_, ?_, ?_, htpattern ▸ hidx⟩
  · rw [hresp, Osc.sample_active (o.srem_ne_zero_iff.2 hpos), hlevel]
    simp only [startedPhase_upper_iff hreset hkept]
  · rw [htosc, Osc.advance_level, hlevel]
  · rw [htosc, Osc.advance_srem_toNat, Nat.sub_add_cancel hpos, hsrem]

/-! ### Silence (R225) -/

theorem State.Quiet.onlyTone {s : State} (h : s.Quiet) : s.OnlyTone := ⟨h.voices_off, h.burst_off, h.pattern_off⟩

/-- Settles O37: a quiet TICK is one with no sub-unit but the oscillator, which is silent. -/
theorem quietTickIsSilent : Obligations.QuietTickIsSilent := by
  intro s h
  rw [execTick_of_onlyTone h.onlyTone, Osc.advance_inactive h.osc_off, Osc.sample_inactive h.osc_off]
  rfl

/-- By induction on the TICKs: a quiet state whose response is 0 is left as it is. -/
theorem ticks_of_quiet (n : Nat) {s : State} (h : s.Quiet) (h0 : s.resp = 0) :
    runInstrs (List.replicate n .tick) s = some (s, List.replicate n 0) := by
  have htick : exec .tick s = .next s := (quietTickIsSilent s h).trans (by rw [← h0])
  induction n with
  | zero => rfl
  | succ n ih => rw [List.replicate_succ, runInstrs_cons_next htick ih, h0, List.replicate_succ]

/-- Settles O38: INIT leaves a quiet state and responds 0. -/
theorem silenceAfterInit : Obligations.SilenceAfterInit := by
  intro s n
  have hinit : exec .init s = .next (s.resetEngine.respond 0) := rfl
  exact runInstrs_cons_next hinit (ticks_of_quiet n (quiet_init s) rfl)

/-! ### The draws of a TICK (90_conflicts.md C9) -/

/-- Only a tail sample draws. -/
theorem voiceAdvance_lfsr_of_attack {c : Config} {tbl : List U16} {lfsr : U16} {v : Voice} {r : VoiceStep}
    (h : voiceAdvance c tbl lfsr v = .ok r) (hpos : v.pos.toNat < c.attackSamples) : r.lfsr = lfsr := by
  obtain ⟨-, rfl⟩ | ⟨-, -, rfl⟩ | ⟨-, -, -, -, -, -, -, rfl⟩ | ⟨-, -, htail, -⟩ := voiceAdvance_cases h
  · rfl
  · rfl
  · rfl
  · omega

/-- By induction on the slots: a pool with no slot in its tail draws nothing. -/
theorem poolAdvance_lfsr_of_attack {c : Config} {tbl : List U16} {lfsr : U16} {vs : List Voice} {r : PoolStep}
    (h : poolAdvance c tbl lfsr vs = .ok r) (hpos : ∀ v ∈ vs, v.pos.toNat < c.attackSamples) : r.lfsr = lfsr := by
  induction vs generalizing lfsr r with
  | nil => cases h; rfl
  | cons v vs ih =>
    obtain ⟨q, p, hq, hp, rfl⟩ := poolAdvance_cons_ok h
    obtain ⟨hv, hvs⟩ := List.forall_mem_cons.1 hpos
    exact (ih hp hvs).trans (voiceAdvance_lfsr_of_attack hq hv)

/-- A pool whose slots behind slot 0 are inactive draws for one slot at most. -/
theorem poolAdvance_lfsr_of_tail_inactive {c : Config} {tbl : List U16} {lfsr : U16} {vs : List Voice} {r : PoolStep}
    (h : poolAdvance c tbl lfsr vs = .ok r) (hoff : ∀ v ∈ vs.tail, v.active = false) :
    r.lfsr = lfsr ∨ r.lfsr = nextDraw c (nextDraw c lfsr) := by
  cases vs with
  | nil => cases h; exact .inl rfl
  | cons v vs =>
    obtain ⟨q, hq, -, -, hlfsr⟩ := poolIsMonophonic c tbl lfsr v vs r hoff h
    exact hlfsr ▸ voiceAdvance_lfsr hq

/-- R161: a fire redraws the delay, or ends the burst and draws nothing. -/
theorem burstFire_lfsr (s : State) : s.burstFire.lfsr = s.lfsr ∨ s.burstFire.lfsr = nextDraw s.config s.lfsr := by
  obtain ⟨-, h⟩ | ⟨-, h⟩ := burstFire_cases s <;> rw [h]
  · exact .inl rfl
  · exact .inr rfl

/-- A burst advance that does not fire touches neither the pool nor LFSR. -/
theorem burstAdvance_of_no_fire {s : State} (h : firesNow s = false) :
    s.burstAdvance.voices = s.voices ∧ s.burstAdvance.lfsr = s.lfsr := by
  cases ha : s.burst.active with
  | false => rw [burstAdvance_of_idle ha]; exact ⟨rfl, rfl⟩
  | true => rw [burstAdvance_of_not_firesNow ha h]; exact ⟨rfl, rfl⟩

/-- Settles O39: a TICK that fires draws at most the new delay, because the click that it starts is in its attack; any other TICK
draws at most for one tail sample. -/
theorem tickDrawsAtMostTwice : Obligations.TickDrawsAtMostTwice := by
  intro s t hs htick
  obtain ⟨r, hpool, rfl⟩ := execTick_next htick
  rw [beforeVoices_config, beforeVoices_voices, beforeVoices_lfsr] at hpool
  show r.lfsr = _ ∨ r.lfsr = _ ∨ r.lfsr = _
  cases hfire : firesNow s with
  | true =>
    obtain ⟨-, -, -, -, ⟨hatt, -⟩, -⟩ := (Config.wf_iff _).1 hs.config_wf
    rw [burstAdvance_of_firesNow hfire, burstFire_voices] at hpool
    have hkept := poolAdvance_lfsr_of_attack hpool fun v hv => by
      rw [triggeredPool_pos _ _ v hv]
      exact hatt
    rw [hkept, ← or_assoc]
    exact .inl (burstFire_lfsr s.burstCounted)
  | false =>
    obtain ⟨hvoices, hlfsr⟩ := burstAdvance_of_no_fire hfire
    rw [hvoices, hlfsr] at hpool
    exact (poolAdvance_lfsr_of_tail_inactive hpool hs.only_slot_zero).imp_right .inr

end Sys2Proof.Machine
end

section
/-! PROOFS. The control commands (46_control.md): NOP (R240), the volume commands (R242, R243), GET_STATUS (R244), and that VOLUME is
advisory (R246). -/

namespace Sys2Proof.Machine

/-! ### NOP, SET_VOLUME, GET_VOLUME and GET_STATUS (R240, R242-R244) -/

/-- Settles O42: R240 is the meaning itself. -/
theorem nopOnlyResponds : Obligations.NopOnlyResponds := fun _ => rfl

/-- Settles O44: the stored value is the clamped operand, which VOLUME's 7 bits hold. -/
theorem setVolumeClamps : Obligations.SetVolumeClamps := fun _ imm => ⟨clampVolume imm, rfl, clampVolume_toNat imm⟩

/-- Settles O45: widening VOLUME to the response's 16 bits keeps its number. -/
theorem getVolumeResponds : Obligations.GetVolumeResponds := fun s =>
  ⟨s.volume.setWidth 16, rfl, BitVec.toNat_setWidth_of_le (by decide)⟩

/-- Settles O46: the response is the status word; its bits 3 and 4 are derived flags. -/
theorem getStatusRespondsTheFlags : Obligations.GetStatusRespondsTheFlags := by
  intro s
  obtain ⟨hill, hburst, hpattern, hosc, hvoices, hreserved⟩ := status_getLsbD s
  refine ⟨s.status, rfl, hill, hburst, hpattern, ?_, ?_, hreserved⟩
  · rw [hosc, Osc.sounding_iff]
  · rw [hvoices, voiceActive_iff]

/-! ### The volume is advisory (R246) -/

theorem sameExcept_withVolume (s : State) (v : BitVec 7) : SameExcept [.volume] s (s.withVolume v) := by
  simp [sameExcept_iff]

/-- Neither the branches of a fire nor what they write read VOLUME. -/
theorem burstFire_withVolume (s : State) (v : BitVec 7) : (s.withVolume v).burstFire = s.burstFire.withVolume v := by
  simp only [State.burstFire, apply_ite (State.withVolume · v)]
  rfl

theorem burstAdvance_withVolume (s : State) (v : BitVec 7) : (s.withVolume v).burstAdvance = s.burstAdvance.withVolume v := by
  simp only [State.burstAdvance, apply_ite (State.withVolume · v), ← burstFire_withVolume]
  rfl

theorem patternAdvance_withVolume (s : State) (v : BitVec 7) :
    (s.withVolume v).patternAdvance = s.patternAdvance.withVolume v := by
  have hdue : (s.withVolume v).dueStep = s.dueStep := rfl
  simp only [State.patternAdvance, apply_ite (State.withVolume · v), hdue]
  cases s.dueStep <;> rfl

theorem beforeVoices_withVolume (s : State) (v : BitVec 7) : (s.withVolume v).beforeVoices = s.beforeVoices.withVolume v := by
  rw [State.beforeVoices, burstAdvance_withVolume, patternAdvance_withVolume, State.beforeVoices]

/-- The pool's advance is the same, since it starts from fields that are not VOLUME, and so is the mix but for VOLUME. -/
theorem execTick_withVolume {s t : State} (h : exec .tick s = .next t) (v : BitVec 7) :
    exec .tick (s.withVolume v) = .next (t.withVolume v) := by
  obtain ⟨r, hpool, rfl⟩ := execTick_next h
  rw [execTick_of_pool (r := r) (by rw [beforeVoices_withVolume]; exact hpool), beforeVoices_withVolume]
  rfl

/-- INIT and SET_VOLUME overwrite VOLUME; every other command but GET_VOLUME carries it along unread. -/
theorem exec_withVolume {i : Instr} {s t : State} (hi : i ≠ .getVolume) (h : exec i s = .next t) (v : BitVec 7) :
    exec i (s.withVolume v) = .next t ∨ exec i (s.withVolume v) = .next (t.withVolume v) := by
  cases i with
  | getVolume => exact absurd rfl hi
  | init | setVolume imm => exact .inl h
  | tick => exact .inr (execTick_withVolume h v)
  | triggerBurst min max =>
    obtain ⟨rfl, rfl, hx⟩ | ⟨hne, hx⟩ := execTriggerBurst_cases min max s <;> cases hx.symm.trans h
    · exact .inr rfl
    · exact .inr (if_neg hne)
  | _ => cases h; exact .inr rfl

/-- Settles O57: the two next states are the same one, or the same but for VOLUME. -/
theorem volumeIsAdvisory : Obligations.VolumeIsAdvisory := by
  intro i s t v hi h
  obtain hx | hx := exec_withVolume hi h v
  · exact ⟨t, hx, SameExcept.refl _ t⟩
  · exact ⟨t.withVolume v, hx, sameExcept_withVolume t v⟩

end Sys2Proof.Machine
end

section
/-! PROOFS. Exceptions, reset and hazards (60_exceptions.md, 70_reset_and_hazards.md): the engine waits without a word (R269, R281), no
step changes the configuration (R282), and no interleaving of the agents stops the machine (R260, R267). -/

namespace Sys2Proof.Machine

/-! ### Waiting, and what a step keeps (R269, R281, R282) -/

/-- Settles O50: of the cases of a step only the wait is left. -/
theorem idleStepHoldsAllState : Obligations.IdleStepHoldsAllState := by
  intro s hc hp
  obtain ⟨hn, _⟩ | ⟨_, _, hs⟩ | ⟨_, _, _, hp', _⟩ := step_cases s
  · exact absurd (hc.symm.trans hn) (by decide)
  · exact hs
  · exact absurd (hp.symm.trans hp') (by simp)

theorem execWord_config_pending {w : Word48} {s t : State} (h : execWord w s = .next t) :
    t.config = s.config ∧ t.pending = s.pending := by
  obtain ⟨i, _, he⟩ | ⟨_, _, rfl⟩ := execWord_next h
  · exact exec_config_pending he
  · exact ⟨rfl, rfl⟩

/-- Settles O54: the step takes the first word from the channel, and the word's effect touches neither the configuration nor the
words behind it; an empty channel has an empty tail. -/
theorem stepsKeepConfigurationAndOrder : Obligations.StepsKeepConfigurationAndOrder := by
  intro s t h
  obtain ⟨hp, rfl⟩ | ⟨w, rest, hp, hw⟩ := step_next h
  · exact ⟨rfl, by rw [hp, List.tail_nil]⟩
  · obtain ⟨hconfig, hpending⟩ := execWord_config_pending hw
    exact ⟨hconfig, by rw [hpending, hp, State.withPending_pending, List.tail_cons]⟩

/-! ### No command stops the engine (R260, R264) -/

/-- Only TICK reads a table, and the invariant gives the tables their lengths. -/
theorem exec_completes {s : State} (h : s.Inv) (i : Instr) : ∃ t, exec i s = .next t := by
  cases i with
  | tick =>
    obtain ⟨t, htick, _⟩ := inv_tick_completes h
    exact ⟨t, htick⟩
  | triggerBurst min max =>
    obtain ⟨_, _, hx⟩ | ⟨_, hx⟩ := execTriggerBurst_cases min max s
    · exact ⟨_, hx⟩
    · exact ⟨_, hx⟩
  | _ => exact ⟨_, rfl⟩

theorem execWord_completes {s : State} (h : s.Inv) (w : Word48) : ∃ t, execWord w s = .next t := by
  cases hd : decode w with
  | ok i => rw [execWord_of_decode hd]; exact exec_completes h i
  | error e => exact ⟨s.raiseIllegal, by simp only [execWord, hd]⟩

/-- From the invariant, in a configuration that is not refused, every step is safe. -/
theorem inv_safe {s : State} (h : s.Inv) (hc : s.config.accepted = true) : s.Safe := by
  cases hp : s.pending with
  | nil => exact ⟨s, idleStepHoldsAllState s hc hp⟩
  | cons w rest =>
    rw [State.Safe, step_of_pending hc hp]
    exact execWord_completes (inv_withPending h rest) w

/-! ### No interleaving of the agents stops the machine (R260, R267, R71) -/

/-- Every action of every agent completes and keeps the invariant; the configuration is kept too, so that the next step is not
refused either. -/
theorem applyEvent_keeps_inv {s : State} (h : s.Inv) (hc : s.config.accepted = true) (e : Event) :
    ∃ t, applyEvent e s = .next t ∧ t.Inv ∧ t.config = s.config := by
  cases e with
  | control w => exact ⟨s.acceptControl w, rfl, inv_withPending h _, rfl⟩
  | tick => exact ⟨s.acceptTick, rfl, inv_withPending h _, rfl⟩
  | engine =>
    obtain ⟨t, hs⟩ := inv_safe h hc
    exact ⟨t, hs, stepKeepsTheInvariant s t h hs, (stepsKeepConfigurationAndOrder s t hs).1⟩
  | powerOn => exact ⟨s.powerOn, rfl, resetWith_inv h.config_wf, rfl⟩

theorem applyEvents_cons_of_next {e : Event} {s t : State} (h : applyEvent e s = .next t) (es : List Event) :
    applyEvents (e :: es) s = applyEvents es t := by
  simp only [applyEvents, h]

/-- Settles O60, by induction on the events: each one leads to a state from which the rest of the run completes. -/
theorem noInterleavingStopsTheEngine : Obligations.NoInterleavingStopsTheEngine := by
  intro es
  induction es with
  | nil => exact fun s h _ => ⟨s, rfl, h⟩
  | cons e es ih =>
    intro s h hc
    obtain ⟨t, he, ht, hconfig⟩ := applyEvent_keeps_inv h hc e
    rw [applyEvents_cons_of_next he]
    exact ih t ht (by rw [hconfig, hc])

end Sys2Proof.Machine
end
